-- ==== Sys2Proof/Word.lean ====
section
/-! DEFINITION. The fixed-width words of the core (spec/00_scope.md R5, R8). Bit 0 is the least-significant bit of each. -/

namespace Sys2Proof

/-- A command word `cmd[79:0]` (R34). -/
abbrev CmdWord := BitVec 80

/-- The contents of `REG[62:0]` (R11; REGW in R5). -/
abbrev RegWord := BitVec 63

/-- The contents of `WIDTH[5:0]` (R13). -/
abbrev WidthWord := BitVec 6

/-- A 64-bit word: a seed, the count, the response data (R5). -/
abbrev DataWord := BitVec 64

/-- The WID field of a command, 8 bits unsigned (R34, R35; WIDW in R5). -/
abbrev WidField := BitVec 8

/-- A 3-bit status code (R64). -/
abbrev StatusCode := BitVec 3

end Sys2Proof
end

