-- ==== Sys2Proof/Syntax.lean ====
section
/-! DEFINITION. The commands of the core: one constructor per row of spec/opcode_table.json, with the fields its row
uses (spec/30_encoding.md R36). A field a row does not use is ignored (R35, R38), so it is no operand. -/

namespace Sys2Proof

/-- A command. -/
inductive Instr where
  /-- NOP, OP = 000 (R53). -/
  | nop
  /-- CONSTRUCT, OP = 001: WID, SEED and B (R54). -/
  | construct (wid : WidField) (seed : DataWord) (bounded : Bool)
  /-- ADVANCE, OP = 010 (R58). -/
  | advance
  /-- PERIOD, OP = 011: WID (R60). -/
  | period (wid : WidField)
  /-- The reserved opcode 100 (R61). -/
  | reserved4
  /-- The reserved opcode 101 (R61). -/
  | reserved5
  /-- The reserved opcode 110 (R61). -/
  | reserved6
  /-- The reserved opcode 111 (R61). -/
  | reserved7
  deriving DecidableEq, Repr

end Sys2Proof
end

