-- ==== Sys2Proof/WellFormed.lean ====
section
/-! DEFINITION. Which commands can be written as a command word. Every pattern of an operand field is admitted
(spec/30_encoding.md R35), so every `Instr` is well-formed; what can be ill-formed is a line of the text form (R40),
whose operands are integers that a port of fixed width may not carry (spec/00_scope.md R4 (i)). -/

namespace Sys2Proof

/-- A command's operands are the fields themselves, and each field admits every pattern (R34, R35). -/
def Instr.wellFormed : Instr → Bool
  | .nop => true
  | .construct _ _ _ => true
  | .advance => true
  | .period _ => true
  | .reserved4 => true
  | .reserved5 => true
  | .reserved6 => true
  | .reserved7 => true

/-- One line of the text form of R40, with the pseudo-commands of R41, after its numbers are read. -/
inductive AsmLine where
  | nop
  /-- `CONSTRUCT <width>, <seed>, <bounded>`. -/
  | construct (width : Nat) (seed : Int) (bounded : Bool)
  /-- `CONSTRUCT` with no operands (R41). -/
  | constructDefault
  | advance
  /-- A pseudo-command for ADVANCE (R41). -/
  | nextValue
  /-- The second spelling of NEXT (R41). -/
  | generate
  /-- `PERIOD <width>`. -/
  | period (width : Nat)
  /-- `.word <hex>`: a raw command word. -/
  | word (w : CmdWord)
  deriving DecidableEq, Repr

/-- A width that the 8-bit WID field carries (R4 (i), R34). -/
def widthFits (width : Nat) : Bool := decide (width < 256)

/-- A seed that the 64-bit SEED field carries, as an unsigned number or in two's complement (R4 (i), R34, R40;
notes/assumptions/14.md, DEDUCED). -/
def seedFits (seed : Int) : Bool := decide (-(2 ^ 63) ≤ seed ∧ seed < 2 ^ 64)

/-- The line's operands fit the fields that carry them. -/
def AsmLine.wellFormed : AsmLine → Bool
  | .nop => true
  | .construct width seed _ => widthFits width && seedFits seed
  | .constructDefault => true
  | .advance => true
  | .nextValue => true
  | .generate => true
  | .period width => widthFits width
  | .word _ => true

end Sys2Proof
end

