-- ==== Sys2Proof/Decode.lean ====
section
/-! DEFINITION. The fields of a command word, the decoder, the encoder and the assembler (spec/30_encoding.md). -/

namespace Sys2Proof

/-- OP = `cmd[2:0]` (R34). -/
def fieldOp (c : CmdWord) : BitVec 3 := c.extractLsb' 0 3

/-- B = `cmd[3]` (R34). -/
def fieldB (c : CmdWord) : Bool := c.getLsbD 3

/-- WID = `cmd[15:8]` (R34). -/
def fieldWid (c : CmdWord) : WidField := c.extractLsb' 8 8

/-- SEED = `cmd[79:16]` (R34). -/
def fieldSeed (c : CmdWord) : DataWord := c.extractLsb' 16 64

/-- The opcode map of R36, read bit by bit as the rule prints OP: `cmd[2]`, `cmd[1]`, `cmd[0]`. Every word is a
command; RSV and the fields an opcode does not use are not looked at (R35, R38). -/
def decode (c : CmdWord) : Instr :=
  match (fieldOp c).getLsbD 2, (fieldOp c).getLsbD 1, (fieldOp c).getLsbD 0 with
  | false, false, false => .nop
  | false, false, true => .construct (fieldWid c) (fieldSeed c) (fieldB c)
  | false, true, false => .advance
  | false, true, true => .period (fieldWid c)
  | true, false, false => .reserved4
  | true, false, true => .reserved5
  | true, true, false => .reserved6
  | true, true, true => .reserved7

/-- Why a string of bits is no command word. -/
inductive DecodeReject where
  /-- "Every command is one 80-bit word", with "no other length" (R34). -/
  | notEightyBits
  deriving DecidableEq, Repr

/-- The decoder on a string of `n` bits whose value is `w`, bit 0 least significant: a string that is not 80 bits
long is no command (R34). -/
def decodeBits (n w : Nat) : Except DecodeReject Instr :=
  if n = 80 ∧ w < 2 ^ 80 then .ok (decode (BitVec.ofNat 80 w)) else .error .notEightyBits

/-- The decoder under the host's numbering of a table word; bits above `nbits` are 0 (notes/assumptions/15.md). -/
def decodeTableWord (nbits w : Nat) : Option Instr :=
  if nbits ≤ 80 ∧ w < 2 ^ nbits then (decodeBits 80 w).toOption else none

/-- The word with the given fields and RSV = 0, bit 79 first: SEED, WID, RSV, B, OP (R34). -/
def packFields (op : BitVec 3) (b : Bool) (wid : WidField) (seed : DataWord) : CmdWord :=
  seed ++ wid ++ 0#4 ++ BitVec.ofBool b ++ op

/-- The opcode of a command (R36). -/
def Instr.opcode : Instr → BitVec 3
  | .nop => 0b000#3
  | .construct _ _ _ => 0b001#3
  | .advance => 0b010#3
  | .period _ => 0b011#3
  | .reserved4 => 0b100#3
  | .reserved5 => 0b101#3
  | .reserved6 => 0b110#3
  | .reserved7 => 0b111#3

/-- The encoder: unused fields encode as 0 (R40). -/
def encode : Instr → CmdWord
  | .nop => packFields (Instr.opcode .nop) false 0#8 0#64
  | .construct wid seed b => packFields (Instr.opcode (.construct wid seed b)) b wid seed
  | .advance => packFields (Instr.opcode .advance) false 0#8 0#64
  | .period wid => packFields (Instr.opcode (.period wid)) false wid 0#64
  | .reserved4 => packFields (Instr.opcode .reserved4) false 0#8 0#64
  | .reserved5 => packFields (Instr.opcode .reserved5) false 0#8 0#64
  | .reserved6 => packFields (Instr.opcode .reserved6) false 0#8 0#64
  | .reserved7 => packFields (Instr.opcode .reserved7) false 0#8 0#64

/-- The word of a line of the text form (R40, R41): WID = width, SEED = seed mod 2^64, B = bounded. -/
def assemble : AsmLine → CmdWord
  | .nop => encode .nop
  | .construct width seed b => encode (.construct (BitVec.ofNat 8 width) (BitVec.ofInt 64 seed) b)
  | .constructDefault => encode (.construct 32#8 8#64 false)
  | .advance => encode .advance
  | .nextValue => encode .advance
  | .generate => encode .advance
  | .period width => encode (.period (BitVec.ofNat 8 width))
  | .word w => w

end Sys2Proof
end

