-- ==== Sys2Proof/Config.lean ====
section
/-! DEFINITION. What one implementation of the core fixes (spec/00_scope.md R5): the type of the tap table, its
contents (OPEN in the spec, so an opaque constant here), the seed-mask mode and the default configuration. -/

namespace Sys2Proof

/-- One entry of the tap table: an ordered 4-tuple of shift distances, each stored in 6 bits (R20, R44). -/
structure Taps where
  t0 : BitVec 6
  t1 : BitVec 6
  t2 : BitVec 6
  t3 : BitVec 6
  deriving DecidableEq, Repr, Inhabited

/-- The domain of an entry for width `w` (R44): four distinct integers, each in the closed range [0, w]. -/
def Taps.admissible (t : Taps) (w : Nat) : Bool :=
  decide (t.t0 ≠ t.t1 ∧ t.t0 ≠ t.t2 ∧ t.t0 ≠ t.t3 ∧ t.t1 ≠ t.t2 ∧ t.t1 ≠ t.t3 ∧ t.t2 ≠ t.t3) &&
  decide (t.t0.toNat ≤ w ∧ t.t1.toNat ≤ w ∧ t.t2.toNat ≤ w ∧ t.t3.toNat ≤ w)

/-- The read-only table of 59 entries, one for each width 5..63: the entry of width `w` stands at place `w - 5`
(R20). -/
abbrev TapTable := Vector Taps 59

/-- Every entry of the table lies in the domain R44 gives for its width. -/
def TapTable.admissible (T : TapTable) : Prop :=
  ∀ i : Fin 59, T[i].admissible (i.val + 5) = true

/-- The seed mask of R55: this hardware takes `narrow`; `full` is the named model option. -/
inductive SeedMaskMode where
  /-- `seed & (w - 2)`. -/
  | narrow
  /-- `seed & (2^w - 2)`. -/
  | full
  deriving DecidableEq, Repr

/-- The entries of the hardware's tap table, which the spec leaves OPEN (R5, 92 D1): a free value. It has no body,
so nothing can be proved of it and a claim holds for every table (notes/assumptions/5.md, DESIGN CHOICE). -/
opaque Config.freeTaps : Nat → Taps

/-- An entry kept within R44's domain for width `w`: every admissible entry is itself, so no admissible table is
lost, and what is not admissible is not a table R44 allows (notes/assumptions/6.md, DESIGN CHOICE). -/
def Config.confineTaps (w : Nat) (t : Taps) : Taps :=
  if t.admissible w then t else ⟨0#6, 1#6, 2#6, 3#6⟩

/-- The contents of TAPS in the hardware: free within R44's domain. -/
def Config.taps : TapTable :=
  Vector.ofFn fun i : Fin 59 => Config.confineTaps (i.val + 5) (Config.freeTaps (i.val + 5))

/-- SEED_MASK_MODE of this hardware (R5, R55; notes/assumptions/8.md). -/
def Config.seedMaskMode : SeedMaskMode := .narrow

end Sys2Proof
end

