-- ==== Sys2Proof/Machine/State.lean ====
section
/-! DEFINITION. The state of the core (spec/10_state.md), its state right after reset (spec/70_reset_and_hazards.md
R75), the statuses of a command (spec/60_exceptions.md R64) and the reasons a step can stop. -/

namespace Sys2Proof.Machine

/-- The result of a command (R64). A status that is not OK is an ordinary response, not a stop (R66). -/
inductive Status where
  | ok
  | invalidSeed
  | invalidWidth
  | sequenceExhausted
  | periodRange
  | illegalCommand
  deriving DecidableEq, Repr

/-- What the host drives on the port at one rising edge of `clk` (R79). -/
structure PortInput where
  /-- `rst`: synchronous active-high reset. -/
  rst : Bool
  /-- `cmd_valid`: `cmd` holds a command this cycle. -/
  cmdValid : Bool
  /-- `cmd`: the command word. -/
  cmd : CmdWord
  deriving DecidableEq, Repr

/-- Everything the spec gives the core, and the inputs the host is about to drive. -/
structure State where
  /-- REG (R11). -/
  reg : RegWord
  /-- WIDTH (R13). -/
  width : WidthWord
  /-- BOUNDED (R14). -/
  bounded : Bool
  /-- COUNT (R15). -/
  count : DataWord
  /-- RSP_VALID (R24). -/
  rspValid : Bool
  /-- RSP_STATUS (R24). -/
  rspStatus : StatusCode
  /-- RSP_DATA (R24). -/
  rspData : DataWord
  /-- TAPS, the read-only table (R20). -/
  taps : TapTable
  /-- The port inputs at the coming rising edges, the next edge first. The model's own field
  (notes/assumptions/2.md, DESIGN CHOICE). -/
  inputs : List PortInput
  deriving DecidableEq, Repr

/-- Why the machine stops. -/
inductive Fault where
  /-- Raised by ADVANCE alone, when WIDTH is outside 5..63: such widths "have no entry and must not be queried"
  (R43). No state that meets R13 raises it. Safe (notes/assumptions/7.md, DEDUCED). -/
  | tapLookupOutsideTable
  deriving DecidableEq, Repr

/-- Why an instruction has no meaning. -/
inductive Refusal where
  /-- Raised by an arm of `exec` whose instruction has no meaning yet; no arm does. Safe. -/
  | notModelled (mnemonic : String)
  deriving DecidableEq, Repr

/-- The core right after reset (R75). TAPS is constant and not reset: its contents are `Config.taps`
(notes/assumptions/5.md). Nothing is presented on the port (notes/assumptions/4.md, DESIGN CHOICE). -/
def State.reset : State where
  reg := 9#63
  width := 32#6
  bounded := false
  count := 0#64
  rspValid := false
  rspStatus := 0#3
  rspData := 0#64
  taps := Config.taps
  inputs := []

end Sys2Proof.Machine
end

