-- ==== Sys2Proof/Machine/Ops.lean ====
section
/-! DEFINITION. The writes a command or an edge makes, each once: the two ways a command ends (`respond`, `raise`:
spec/00_scope.md R9), the writes of CONSTRUCT and ADVANCE, reset and the edge with no command. -/

namespace Sys2Proof.Machine

/-- The numeric value of each status (R64). -/
def Status.code : Status → StatusCode
  | .ok => 0#3
  | .invalidSeed => 1#3
  | .invalidWidth => 2#3
  | .sequenceExhausted => 3#3
  | .periodRange => 4#3
  | .illegalCommand => 5#3

/-- `respond(code, data)`: the command ends with that status and data word, which the response registers hold from
this edge on (R9, R79; notes/assumptions/9.md). -/
def respond (c : Status) (data : DataWord) (s : State) : State :=
  { s with rspValid := true, rspStatus := c.code, rspData := data }

/-- `raise Status(code)`: the command ends with that status, writes no state, and its data is 0 (R9, R65). This is
the core's whole error mechanism: there is no trap (R68). -/
def raise (c : Status) (s : State) : State :=
  respond c 0#64 s

/-- The four writes of a successful CONSTRUCT (R54). -/
def writeConfiguration (reg : RegWord) (width : WidthWord) (bounded : Bool) (s : State) : State :=
  { s with reg := reg, width := width, bounded := bounded, count := 0#64 }

/-- The two writes of a successful ADVANCE: REG and `COUNT <- (COUNT + 1) mod 2^64` (R15, R58). -/
def writeAdvance (reg : RegWord) (s : State) : State :=
  { s with reg := reg, count := s.count + 1#64 }

/-- An edge with `rst = 1`: the values of R75. TAPS is not touched (R75, R76). -/
def loadReset (s : State) : State :=
  { s with
    reg := 9#63, width := 32#6, bounded := false, count := 0#64
    rspValid := false, rspStatus := 0#3, rspData := 0#64 }

/-- An edge with no command: the response registers are cleared and the rest is unchanged (R79). -/
def idleEdge (s : State) : State :=
  { s with rspValid := false, rspStatus := 0#3, rspData := 0#64 }

/-- What the port carries when the host drives nothing. -/
def idleInput : PortInput := { rst := false, cmdValid := false, cmd := 0#80 }

/-- The input of an edge at which the host presents `c`. -/
def presentCommand (c : CmdWord) : PortInput := { rst := false, cmdValid := true, cmd := c }

/-- The port input of the coming edge: the first listed one, or none driven once the list is used up
(notes/assumptions/3.md, DESIGN CHOICE). -/
def nextInput (s : State) : PortInput := s.inputs.headD idleInput

/-- The listed inputs after the coming edge. -/
def takeInput (s : State) : State := { s with inputs := s.inputs.tail }

end Sys2Proof.Machine
end

