-- ==== Sys2Proof/Machine/Operands.lean ====
section
/-! DEFINITION. What CONSTRUCT and PERIOD do with their operands (spec/41_commands.md R54, R55, R60). There is no
other operand form: no register operand, immediate or address (R21, R35, R63). -/

namespace Sys2Proof.Machine

/-- CONSTRUCT's check `wid > 4 and wid < 64` (R54, 90 C3). -/
def widthSupported (wid : WidField) : Bool := decide (4#8 < wid ∧ wid < 64#8)

/-- The mask CONSTRUCT puts on the seed: `zext_64(wid - 2)` or `2^wid - 2` (R54, R55). -/
def seedMask (mode : SeedMaskMode) (wid : WidField) : DataWord :=
  match mode with
  | .narrow => (wid - 2#8).setWidth 64
  | .full => (1#64 <<< wid.toNat) - 2#64

/-- The initial REG: `((seed & mask) | 1)[62:0]` (R54). -/
def initialReg (mode : SeedMaskMode) (wid : WidField) (seed : DataWord) : RegWord :=
  ((seed &&& seedMask mode wid) ||| 1#64).extractLsb' 0 63

/-- `wid[5:0]` (R54). -/
def widthOfField (wid : WidField) : WidthWord := wid.extractLsb' 0 6

/-- PERIOD's check `wid > 63` (R60). -/
def periodTooWide (wid : WidField) : Bool := decide (63#8 < wid)

/-- `2^n` as a 64-bit value (R17, R60). -/
def powerOfTwo (n : Nat) : DataWord := 1#64 <<< n

end Sys2Proof.Machine
end

