-- ==== Sys2Proof/Machine/Flags.lean ====
section
/-! DEFINITION. The values derived from the state (spec/10_state.md R17, R18) and the outputs of the core (R25;
spec/70_reset_and_hazards.md R79). There are no condition codes (R23). -/

namespace Sys2Proof.Machine

/-- MAXP = 2^WIDTH (R17). -/
def State.maxp (s : State) : DataWord := powerOfTwo s.width.toNat

/-- EXHAUSTED = BOUNDED == 1 and COUNT >= MAXP (R18). -/
def State.exhausted (s : State) : Bool := s.bounded && decide (s.maxp ≤ s.count)

/-- The state machine of R18. -/
inductive GeneratorStatus where
  | active
  | exhausted
  deriving DecidableEq, Repr

/-- Active when EXHAUSTED = 0, Exhausted when EXHAUSTED = 1 (R18). -/
def State.generatorStatus (s : State) : GeneratorStatus :=
  if s.exhausted then .exhausted else .active

/-- The core's output signals (R79). -/
structure Outputs where
  rspValid : Bool
  rspStatus : StatusCode
  rspData : DataWord
  obsReg : RegWord
  obsWidth : WidthWord
  obsBounded : Bool
  obsCount : DataWord
  obsExhausted : Bool
  deriving DecidableEq, Repr

/-- The outputs are always equal to the current state; reading them is a function of the state, so it has no side
effect (R24, R25). -/
def State.outputs (s : State) : Outputs where
  rspValid := s.rspValid
  rspStatus := s.rspStatus
  rspData := s.rspData
  obsReg := s.reg
  obsWidth := s.width
  obsBounded := s.bounded
  obsCount := s.count
  obsExhausted := s.exhausted

end Sys2Proof.Machine
end

