-- ==== Sys2Proof/Machine/TapStep.lean ====
section
/-! DEFINITION. The combinational layers: tap lookup, feedback combiner and step function
(spec/40_tap_table_and_step.md R43, R47, R48). -/

namespace Sys2Proof.Machine

/-- TapLookup(w) = TAPS(w) for w in 5..63; other widths have no entry (R43). -/
def tapLookup (T : TapTable) (w : WidthWord) : Option Taps :=
  if h : 5 ≤ w.toNat then some (T[w.toNat - 5]'(by have := w.isLt; omega)) else none

/-- One tapped bit, `(s >> t) & 1` (R47). -/
def tappedBit (s : RegWord) (t : BitVec 6) : RegWord := (s >>> t.toNat) &&& 1#63

/-- Feedback: the XOR of the four tapped bits (R47). -/
def feedback (t : Taps) (s : RegWord) : RegWord :=
  tappedBit s t.t0 ^^^ tappedBit s t.t1 ^^^ tappedBit s t.t2 ^^^ tappedBit s t.t3

/-- Step(s, w) = `(s >> 1) | (newbit << (w - 1))` (R48). -/
def stepReg (t : Taps) (w : Nat) (s : RegWord) : RegWord :=
  (s >>> 1) ||| (feedback t s <<< (w - 1))

end Sys2Proof.Machine
end

