-- ==== Sys2Proof/Machine/Generator.lean ====
section
/-! DEFINITION. CONSTRUCT, ADVANCE and PERIOD (spec/41_commands.md R54 to R60). -/

namespace Sys2Proof.Machine

/-- CONSTRUCT under either seed-mask mode: the seed is checked first, then the width (R54, R67); a failure writes
no state (R57). -/
def constructWith (mode : SeedMaskMode) (wid : WidField) (seed : DataWord) (b : Bool) (s : State) : State :=
  if seed = 0#64 then raise .invalidSeed s
  else if widthSupported wid then
    respond .ok 0#64 (writeConfiguration (initialReg mode wid seed) (widthOfField wid) b s)
  else raise .invalidWidth s

/-- CONSTRUCT on this hardware (R54). -/
def execConstruct (wid : WidField) (seed : DataWord) (b : Bool) (s : State) : Host.Outcome State Fault Refusal :=
  .next (constructWith Config.seedMaskMode wid seed b s)

/-- ADVANCE: SEQUENCE_EXHAUSTED when EXHAUSTED, else one step of REG, counted, and the new REG as data (R58). -/
def execAdvance (s : State) : Host.Outcome State Fault Refusal :=
  if s.exhausted then .next (raise .sequenceExhausted s)
  else
    match tapLookup s.taps s.width with
    | none => .fault .tapLookupOutsideTable
    | some t =>
      let r := stepReg t s.width.toNat s.reg
      .next (respond .ok (r.setWidth 64) (writeAdvance r s))

/-- PERIOD: 2^WID, or PERIOD_RANGE when WID > 63; no state written (R60). -/
def execPeriod (wid : WidField) (s : State) : Host.Outcome State Fault Refusal :=
  if periodTooWide wid then .next (raise .periodRange s)
  else .next (respond .ok (powerOfTwo wid.toNat) s)

end Sys2Proof.Machine
end

