-- ==== Sys2Proof/Machine/Idle.lean ====
section
/-! DEFINITION. NOP (spec/41_commands.md R53). -/

namespace Sys2Proof.Machine

/-- NOP: `respond(OK, 0)`, no state written (R53). -/
def execNop (s : State) : Host.Outcome State Fault Refusal :=
  .next (respond .ok 0#64 s)

end Sys2Proof.Machine
end

