-- ==== Sys2Proof/Machine/Reserved.lean ====
section
/-! DEFINITION. The reserved opcodes 4..7 (spec/41_commands.md R61): defined, not undefined (93 I8). -/

namespace Sys2Proof.Machine

/-- `raise Status(ILLEGAL_COMMAND)`, always (R37, R61). -/
def illegalCommand (s : State) : Host.Outcome State Fault Refusal :=
  .next (raise .illegalCommand s)

/-- The reserved opcode 100 (R61). -/
def execReserved4 (s : State) : Host.Outcome State Fault Refusal := illegalCommand s

/-- The reserved opcode 101 (R61). -/
def execReserved5 (s : State) : Host.Outcome State Fault Refusal := illegalCommand s

/-- The reserved opcode 110 (R61). -/
def execReserved6 (s : State) : Host.Outcome State Fault Refusal := illegalCommand s

/-- The reserved opcode 111 (R61). -/
def execReserved7 (s : State) : Host.Outcome State Fault Refusal := illegalCommand s

end Sys2Proof.Machine
end

