-- ==== Sys2Proof/Machine/Port.lean ====
section
/-! DEFINITION. One rising edge of `clk` (spec/70_reset_and_hazards.md R76 to R79). -/

namespace Sys2Proof.Machine

/-- The edge under the port input `e`: reset wins over a command, which is then dropped (R77); a command is one
transaction-level step (R79); with neither, the response registers are cleared (R79). -/
def clockEdge (e : PortInput) (s : State) : Host.Outcome State Fault Refusal :=
  if e.rst then .next (loadReset s)
  else if e.cmdValid then exec (decode e.cmd) s
  else .next (idleEdge s)

/-- `w`, taken as a word of `nbits` bits with zeros above, presented at the next edge, before what is listed
already. -/
def presentNext (nbits w : Nat) (s : State) : State :=
  { s with inputs := presentCommand (BitVec.ofNat 80 (w % 2 ^ nbits)) :: s.inputs }

end Sys2Proof.Machine
end

