-- ==== Sys2Proof/Machine/Step.lean ====
section
/-! DEFINITION. The machine's step: one rising edge of `clk` with the next listed port input (notes/assumptions/1.md,
2.md). There is no program counter and no fetch (spec/10_state.md R22): a command is run by being presented. -/

namespace Sys2Proof.Machine

/-- One rising edge. -/
def step (s : State) : Host.Outcome State Fault Refusal :=
  clockEdge (nextInput s) (takeInput s)

/-- The state in which the host presents the given word at the very next edge (notes/assumptions/11.md). -/
def State.withFetchWord (s : State) (nbits w : Nat) : State :=
  presentNext nbits w s

end Sys2Proof.Machine
end

