-- ==== Sys2Proof/Machine/Cores.lean ====
section
/-! DEFINITION. Several cores side by side (spec/20_memory.md R33): a product of independent single-core models that
have only the constant TAPS contents in common. -/

namespace Sys2Proof.Machine

/-- One place of the product: a core that runs, or one that has stopped, with its own reason. -/
inductive CoreSlot where
  | running (s : State)
  | faulted (r : Fault)
  | refused (r : Refusal)
  deriving DecidableEq, Repr

/-- Several cores: the TAPS contents, held once for all of them, and each core's own place (R33). -/
structure Cores where
  /-- TAPS, "common to all instances" (R33). -/
  taps : TapTable
  /-- The cores. -/
  slots : List CoreSlot
  deriving DecidableEq, Repr

/-- The place a step leaves. -/
def CoreSlot.ofOutcome : Host.Outcome State Fault Refusal → CoreSlot
  | .next s => .running s
  | .fault r => .faulted r
  | .refused r => .refused r

/-- One edge of one core over the common table. A core that has stopped stays as it is, and stops no other. -/
def stepSlot (T : TapTable) : CoreSlot → CoreSlot
  | .running s => CoreSlot.ofOutcome (step { s with taps := T })
  | .faulted r => .faulted r
  | .refused r => .refused r

/-- One edge of core `k` alone; a number that names no core changes nothing. R33 gives no ordering between cores, so
edges of several cores are these, in any order (notes/assumptions/16.md, DESIGN CHOICE). -/
def stepCore (k : Nat) (G : Cores) : Cores :=
  { G with slots := G.slots.modify k (stepSlot G.taps) }

/-- `n` cores right after reset, over the contents of TAPS in the hardware (R33, R75). -/
def Cores.reset (n : Nat) : Cores where
  taps := Config.taps
  slots := List.replicate n (.running State.reset)

/-- Every running core holds the common TAPS contents (R33). -/
def Cores.TapsCommon (G : Cores) : Prop :=
  ∀ s : State, CoreSlot.running s ∈ G.slots → s.taps = G.taps

end Sys2Proof.Machine
end

