-- ==== Sys2Proof/Safety.lean ====
section
/-! DEFINITION. The terms claims are stated in: the invariants of spec/10_state.md, repeated steps, the maximal-length
hypothesis of spec/00_scope.md R6, sequences of commands and the responses a host gets back. -/

namespace Sys2Proof

/-- The command is a CONSTRUCT whose checks pass (R54). -/
def Instr.validConstruct : Instr → Bool
  | .construct wid seed _ => decide (seed ≠ 0#64 ∧ 4 < wid.toNat ∧ wid.toNat < 64)
  | .nop => false
  | .advance => false
  | .period _ => false
  | .reserved4 => false
  | .reserved5 => false
  | .reserved6 => false
  | .reserved7 => false

end Sys2Proof

namespace Sys2Proof.Machine

/-- The invariants the spec gives the architectural state: WIDTH holds a value in 5..63 (R13), REG < 2^WIDTH (R12),
and COUNT ≤ MAXP while BOUNDED = 1 (R19). -/
structure State.Inv (s : State) : Prop where
  width_ge : 5 ≤ s.width.toNat
  reg_fits : s.reg.toNat < 2 ^ s.width.toNat
  count_bounded : s.bounded = true → s.count.toNat ≤ 2 ^ s.width.toNat

/-- The shape of the response registers: a status of the table, data 0 beside a status that is not OK (R64, R65),
and both 0 while RSP_VALID = 0 (R75, R79). -/
structure State.ResponseInv (s : State) : Prop where
  status_known : s.rspStatus.toNat ≤ 5
  error_data : s.rspStatus ≠ 0#3 → s.rspData = 0#64
  invalid_clear : s.rspValid = false → s.rspStatus = 0#3 ∧ s.rspData = 0#64

/-- The values R75 gives every element after reset, and the derived values that follow from them. -/
structure State.HasResetValues (s : State) : Prop where
  reg : s.reg = 9#63
  width : s.width = 32#6
  bounded : s.bounded = false
  count : s.count = 0#64
  rspValid : s.rspValid = false
  rspStatus : s.rspStatus = 0#3
  rspData : s.rspData = 0#64
  maxp : s.maxp.toNat = 2 ^ 32
  exhausted : s.exhausted = false

/-- REG, WIDTH, BOUNDED and COUNT, the architectural registers (R21), agree. -/
def sameArchitecture (s t : State) : Prop :=
  t.reg = s.reg ∧ t.width = s.width ∧ t.bounded = s.bounded ∧ t.count = s.count

/-- What no command writes agrees: the table TAPS (R20) and the inputs still to come. -/
def sameSurroundings (s t : State) : Prop :=
  t.taps = s.taps ∧ t.inputs = s.inputs

/-- The response registers hold a response with the status code `c` and the data word `data` (R24, R64). -/
def respondsWith (c : StatusCode) (data : DataWord) (t : State) : Prop :=
  t.rspValid = true ∧ t.rspStatus = c ∧ t.rspData = data

/-- The command ended with that status and data, and wrote nothing but the response registers. -/
def onlyResponds (c : StatusCode) (data : DataWord) (s t : State) : Prop :=
  sameArchitecture s t ∧ sameSurroundings s t ∧ respondsWith c data t

/-- `Step^k(a, w)`. -/
def stepIter (t : Taps) (w : Nat) : Nat → RegWord → RegWord
  | 0, a => a
  | k + 1, a => stepIter t w k (stepReg t w a)

/-- MAXLEN (R6): from every nonzero w-bit state the step visits all 2^w - 1 nonzero w-bit states before it can
repeat, i.e. within its first 2^w - 1 values. A hypothesis, never a fact (notes/assumptions/12.md, DEDUCED). -/
def MaxLen (t : Taps) (w : Nat) : Prop :=
  ∀ a x : RegWord, a ≠ 0#63 → a.toNat < 2 ^ w → x ≠ 0#63 → x.toNat < 2 ^ w →
    ∃ k, k < 2 ^ w - 1 ∧ stepIter t w k a = x

/-- The entry of WIDTH in the core's own table exists and meets MAXLEN, and REG is not 0: what makes every later value
nonzero (R50, R59; MAXLEN as notes/assumptions/12.md reads it). -/
structure State.MaxLenInv (s : State) : Prop where
  inv : s.Inv
  reg_nonzero : s.reg ≠ 0#63
  entry : ∃ taps, tapLookup s.taps s.width = some taps ∧ MaxLen taps s.width.toNat

/-- Commands executed one after another, stopping at the first that stops. -/
def execAll : List Instr → State → Host.Outcome State Fault Refusal
  | [], s => .next s
  | i :: is, s =>
    match exec i s with
    | .next t => execAll is t
    | .fault r => .fault r
    | .refused r => .refused r

/-- `n` rising edges one after another, stopping at the first that stops. -/
def runEdges : Nat → State → Host.Outcome State Fault Refusal
  | 0, s => .next s
  | n + 1, s =>
    match step s with
    | .next t => runEdges n t
    | .fault r => .fault r
    | .refused r => .refused r

/-- The response visible in this cycle, if a command was accepted at the edge before it (R24). -/
def State.response (s : State) : Option (StatusCode × DataWord) :=
  if s.rspValid then some (s.rspStatus, s.rspData) else none

/-- The responses of the next `n` edges, one for each accepted command (R82). -/
def responses : Nat → State → List (StatusCode × DataWord)
  | 0, _ => []
  | n + 1, s =>
    match step s with
    | .next t => t.response.toList ++ responses n t
    | .fault _ => []
    | .refused _ => []

end Sys2Proof.Machine
end

