-- ==== Sys2Proof/Certificates/Slice0/Obligations.lean ====
section
/-! DEFINITION. The statements for the provers, each formalising rules of spec/ (named in its docstring). -/

open Sys2Proof Sys2Proof.Machine

/-! ## The commands -/

/-- R53: every word with OP = 000 is NOP, and NOP responds OK with data 0 from any state and writes no state. -/
def Obligations.NopRespondsOkAndWritesNothing : Prop :=
  (∀ c : CmdWord, c.extractLsb' 0 3 = 0b000#3 → decode c = .nop) ∧
  ∀ s : State, ∃ t, exec .nop s = .next t ∧ onlyResponds 0#3 0#64 s t

/-- R54: the fields CONSTRUCT reads; INVALID_SEED when SEED = 0; else INVALID_WIDTH when WID is outside 5..63; else
the new REG under this hardware's narrow mask, WIDTH, BOUNDED and COUNT, and OK with data 0. Under the model option
FULL the mask is 2^wid - 2 and everything else is the same. -/
def Obligations.ConstructValidatesThenReloadsTheGenerator : Prop :=
  (∀ c : CmdWord, c.extractLsb' 0 3 = 0b001#3 →
    decode c = .construct (c.extractLsb' 8 8) (c.extractLsb' 16 64) (c.getLsbD 3)) ∧
  ∀ (wid : WidField) (seed : DataWord) (b : Bool) (s : State),
    (seed = 0#64 → ∃ t, exec (.construct wid seed b) s = .next t ∧ onlyResponds 1#3 0#64 s t) ∧
    (seed ≠ 0#64 → ¬ (4 < wid.toNat ∧ wid.toNat < 64) →
      ∃ t, exec (.construct wid seed b) s = .next t ∧ onlyResponds 2#3 0#64 s t) ∧
    (seed ≠ 0#64 → 4 < wid.toNat → wid.toNat < 64 →
      ∃ t, exec (.construct wid seed b) s = .next t ∧
        t.reg.toNat = (seed.toNat &&& (wid.toNat - 2)) ||| 1 ∧ t.width.toNat = wid.toNat ∧ t.bounded = b ∧
        t.count = 0#64 ∧ sameSurroundings s t ∧ respondsWith 0#3 0#64 t ∧
        (constructWith .full wid seed b s).reg.toNat = (seed.toNat &&& (2 ^ wid.toNat - 2)) ||| 1 ∧
        { constructWith .full wid seed b s with reg := t.reg } = t) ∧
    (seed = 0#64 ∨ ¬ (4 < wid.toNat ∧ wid.toNat < 64) →
      exec (.construct wid seed b) s = .next (constructWith .full wid seed b s))

/-- R57: a CONSTRUCT that fails keeps REG, WIDTH, BOUNDED and COUNT, and its response data is 0. It fails exactly
when the seed is 0 or the width is unsupported. -/
def Obligations.FailedConstructKeepsTheGenerator : Prop :=
  ∀ (wid : WidField) (seed : DataWord) (b : Bool) (s : State),
    ∃ t, exec (.construct wid seed b) s = .next t ∧ t.rspValid = true ∧
      (t.rspStatus ≠ 0#3 ↔ seed = 0#64 ∨ ¬ (4 < wid.toNat ∧ wid.toNat < 64)) ∧
      (t.rspStatus ≠ 0#3 → sameArchitecture s t ∧ t.rspData = 0#64)

/-- R67: INVALID_SEED is checked first, so SEED = 0 reports it whatever WID is; every other command has at most one
status that is not OK; at an edge with rst = 1 a command changes nothing. -/
def Obligations.EachCommandReportsOneStatus : Prop :=
  (∀ (wid : WidField) (b : Bool) (s : State),
    ∃ t, exec (.construct wid 0#64 b) s = .next t ∧ onlyResponds 1#3 0#64 s t) ∧
  (∀ (i : Instr) (s t s' t' : State), (∀ wid seed b, i ≠ .construct wid seed b) →
    exec i s = .next t → exec i s' = .next t' → t.rspStatus ≠ 0#3 → t'.rspStatus ≠ 0#3 →
      t.rspStatus = t'.rspStatus) ∧
  (∀ (e : PortInput) (s : State), e.rst = true → clockEdge e s = clockEdge { e with cmdValid := false } s)

/-- R58: every word with OP = 010 is ADVANCE. EXHAUSTED gives SEQUENCE_EXHAUSTED and writes no state; otherwise, for
a WIDTH that has a table entry (R13, R43), REG takes Step(REG, WIDTH), COUNT counts mod 2^64, and the data is the new
REG. -/
def Obligations.AdvanceStepsOrReportsExhaustion : Prop :=
  (∀ c : CmdWord, c.extractLsb' 0 3 = 0b010#3 → decode c = .advance) ∧
  ∀ s : State,
    (s.bounded = true ∧ 2 ^ s.width.toNat ≤ s.count.toNat →
      ∃ t, exec .advance s = .next t ∧ onlyResponds 3#3 0#64 s t) ∧
    (¬ (s.bounded = true ∧ 2 ^ s.width.toNat ≤ s.count.toNat) → 5 ≤ s.width.toNat →
      ∃ taps t, tapLookup s.taps s.width = some taps ∧ exec .advance s = .next t ∧
        t.reg = stepReg taps s.width.toNat s.reg ∧ t.count.toNat = (s.count.toNat + 1) % 2 ^ 64 ∧
        t.width = s.width ∧ t.bounded = s.bounded ∧ sameSurroundings s t ∧
        t.rspValid = true ∧ t.rspStatus = 0#3 ∧ t.rspData.toNat = t.reg.toNat)

/-- The model's choice (notes/assumptions/7.md): ADVANCE stops where the table has no entry, in states the hardware
never reaches (R13, R43). -/
def Obligations.AdvanceFaultsOnlyWithoutTableEntry : Prop :=
  ∀ s : State, exec .advance s = .fault .tapLookupOutsideTable ↔
    s.width.toNat < 5 ∧ ¬ (s.bounded = true ∧ 2 ^ s.width.toNat ≤ s.count.toNat)

/-- R58, R30: a repeated ADVANCE in the Exhausted state changes nothing further. -/
def Obligations.ExhaustedAdvanceIsIdempotent : Prop :=
  ∀ s t : State, s.exhausted = true → exec .advance s = .next t →
    sameArchitecture s t ∧ t.exhausted = true ∧ exec .advance t = .next t

/-- R60: every word with OP = 011 is PERIOD of its WID field; WID ≤ 63 answers 2^WID, WID ≥ 64 answers PERIOD_RANGE;
no state is written in either case. -/
def Obligations.PeriodReturnsThePowerOfTwo : Prop :=
  (∀ c : CmdWord, c.extractLsb' 0 3 = 0b011#3 → decode c = .period (c.extractLsb' 8 8)) ∧
  ∀ (wid : WidField) (s : State),
    (wid.toNat ≤ 63 → ∃ t d, exec (.period wid) s = .next t ∧ d.toNat = 2 ^ wid.toNat ∧ onlyResponds 0#3 d s t) ∧
    (64 ≤ wid.toNat → ∃ t, exec (.period wid) s = .next t ∧ onlyResponds 4#3 0#64 s t)

/-- R61: the reserved opcodes respond ILLEGAL_COMMAND from any state and write no state. -/
def Obligations.ReservedOpcodesRespondIllegalCommand : Prop :=
  (∀ c : CmdWord,
    (c.extractLsb' 0 3 = 0b100#3 → decode c = .reserved4) ∧ (c.extractLsb' 0 3 = 0b101#3 → decode c = .reserved5) ∧
    (c.extractLsb' 0 3 = 0b110#3 → decode c = .reserved6) ∧ (c.extractLsb' 0 3 = 0b111#3 → decode c = .reserved7)) ∧
  ∀ s : State,
    (∃ t, exec .reserved4 s = .next t ∧ onlyResponds 5#3 0#64 s t) ∧
    (∃ t, exec .reserved5 s = .next t ∧ onlyResponds 5#3 0#64 s t) ∧
    (∃ t, exec .reserved6 s = .next t ∧ onlyResponds 5#3 0#64 s t) ∧
    (∃ t, exec .reserved7 s = .next t ∧ onlyResponds 5#3 0#64 s t)

/-! ## Rules over all commands -/

/-- R64: each code is produced exactly by the commands and under the conditions of its row. -/
def Obligations.EachStatusHasExactlyItsCause : Prop :=
  ∀ (i : Instr) (s t : State), exec i s = .next t →
    t.rspStatus.toNat ≤ 5 ∧
    (t.rspStatus = 1#3 ↔ ∃ wid b, i = .construct wid 0#64 b) ∧
    (t.rspStatus = 2#3 ↔ ∃ wid seed b, i = .construct wid seed b ∧ seed ≠ 0#64 ∧ ¬ (5 ≤ wid.toNat ∧ wid.toNat ≤ 63)) ∧
    (t.rspStatus = 3#3 ↔ i = .advance ∧ s.exhausted = true) ∧
    (t.rspStatus = 4#3 ↔ ∃ wid, i = .period wid ∧ 64 ≤ wid.toNat) ∧
    (t.rspStatus = 5#3 ↔ i = .reserved4 ∨ i = .reserved5 ∨ i = .reserved6 ∨ i = .reserved7)

/-- R65: a command whose status is not OK leaves REG, WIDTH, BOUNDED and COUNT unchanged, and its data is 0. -/
def Obligations.NotOkWritesNoArchitecturalState : Prop :=
  ∀ (i : Instr) (s t : State), exec i s = .next t → t.rspStatus ≠ 0#3 →
    sameArchitecture s t ∧ t.rspData = 0#64

/-- R11, R13, R14: only a successful CONSTRUCT and reset write WIDTH and BOUNDED; only these and a successful ADVANCE
write REG. -/
def Obligations.OnlyTheNamedCommandsWriteTheGenerator : Prop :=
  ∀ (e : PortInput) (s t : State), clockEdge e s = .next t → e.rst = false →
    (¬ (e.cmdValid = true ∧ t.rspStatus = 0#3 ∧ e.cmd.extractLsb' 0 3 = 0b001#3) →
      t.width = s.width ∧ t.bounded = s.bounded) ∧
    (¬ (e.cmdValid = true ∧ t.rspStatus = 0#3 ∧
        (e.cmd.extractLsb' 0 3 = 0b001#3 ∨ e.cmd.extractLsb' 0 3 = 0b010#3)) →
      t.reg = s.reg)

/-- R15: what COUNT is after any edge. -/
def Obligations.CountCountsSuccessfulAdvances : Prop :=
  State.reset.count = 0#64 ∧
  ∀ (e : PortInput) (s t : State), clockEdge e s = .next t →
    t.count.toNat =
      if e.rst then 0
      else if e.cmdValid = true ∧ t.rspStatus = 0#3 ∧ e.cmd.extractLsb' 0 3 = 0b001#3 then 0
      else if e.cmdValid = true ∧ t.rspStatus = 0#3 ∧ e.cmd.extractLsb' 0 3 = 0b010#3 then
        (s.count.toNat + 1) % 2 ^ 64
      else s.count.toNat

/-- R16: from a state that meets the invariants no command makes COUNT of a bounded generator exceed 2^63; an
unbounded one wraps from 2^64 - 1 to 0. -/
def Obligations.CountWrapsOnlyWhileUnbounded : Prop :=
  (∀ (i : Instr) (s t : State), s.Inv → exec i s = .next t → t.bounded = true →
    t.count.toNat ≤ 2 ^ t.width.toNat ∧ t.count.toNat ≤ 2 ^ 63) ∧
  (∀ s : State, 5 ≤ s.width.toNat → s.bounded = false → s.count.toNat = 2 ^ 64 - 1 →
    ∃ t, exec .advance s = .next t ∧ t.rspStatus = 0#3 ∧ t.count = 0#64)

/-- R17: MAXP = 2^WIDTH exactly, at most 2^63 (and 2^32 after reset). -/
def Obligations.MaxPeriodIsExact : Prop :=
  (∀ s : State, s.maxp.toNat = 2 ^ s.width.toNat ∧ s.maxp.toNat ≤ 2 ^ 63) ∧ State.reset.maxp.toNat = 2 ^ 32

/-- R18: EXHAUSTED, and the state machine it gives: Active after CONSTRUCT and reset, Exhausted exactly when the
count after the increment equals MAXP, never while BOUNDED = 0. Exhausted is terminal: COUNT, which is MAXP in every
state that meets the invariants, and the rest of the generator stay, and so does the status, at every edge that is
neither a reset nor a successful CONSTRUCT. -/
def Obligations.ExhaustedFollowsItsStateMachine : Prop :=
  (∀ s : State, s.exhausted = true ↔ s.bounded = true ∧ 2 ^ s.width.toNat ≤ s.count.toNat) ∧
  (∀ s : State, (s.generatorStatus = .exhausted ↔ s.exhausted = true) ∧
    (s.generatorStatus = .active ↔ s.exhausted = false)) ∧
  State.reset.generatorStatus = .active ∧
  (∀ wid seed b s t, exec (.construct wid seed b) s = .next t → t.rspStatus = 0#3 → t.generatorStatus = .active) ∧
  (∀ s t : State, s.generatorStatus = .active → exec .advance s = .next t →
    (t.generatorStatus = .exhausted ↔ s.bounded = true ∧ s.count.toNat + 1 = 2 ^ s.width.toNat)) ∧
  (∀ s : State, s.Inv → s.generatorStatus = .exhausted → s.count.toNat = 2 ^ s.width.toNat) ∧
  (∀ (e : PortInput) (s t : State), s.generatorStatus = .exhausted → clockEdge e s = .next t →
    (e.rst = false → ¬ (e.cmdValid = true ∧ t.rspStatus = 0#3 ∧ e.cmd.extractLsb' 0 3 = 0b001#3) →
      sameArchitecture s t ∧ t.generatorStatus = .exhausted) ∧
    (e.rst = true → t.generatorStatus = .active))

/-- R25: the observation outputs equal the current state. -/
def Obligations.OutputsShowTheCurrentState : Prop :=
  ∀ s : State, s.outputs.obsReg = s.reg ∧ s.outputs.obsWidth = s.width ∧ s.outputs.obsBounded = s.bounded ∧
    s.outputs.obsCount = s.count ∧
    (s.outputs.obsExhausted = true ↔ s.bounded = true ∧ 2 ^ s.width.toNat ≤ s.count.toNat)

/-! ## Tap table, feedback and step -/

/-- R43: the lookup succeeds for every width in 5..63, with that width's entry, and for no other. -/
def Obligations.TapLookupCoversTheSupportedWidths : Prop :=
  ∀ (T : TapTable) (w : WidthWord),
    (∀ h : w.toNat - 5 < 59, 5 ≤ w.toNat → tapLookup T w = some T[w.toNat - 5]) ∧
    (w.toNat < 5 → tapLookup T w = none)

/-- R44's domain, as the model takes it for the OPEN table (notes/assumptions/6.md): the contents at reset lie in it,
whatever the free entries are, and no admissible entry is lost. -/
def Obligations.ResetTapTableIsAdmissible : Prop :=
  State.reset.taps.admissible ∧ ∀ (w : Nat) (t : Taps), t.admissible w = true → Config.confineTaps w t = t

/-- R47: the feedback bit is the XOR of the four tapped bits; it is 0 at 0, a tap t = w reads 0, and it is
XOR-linear. -/
def Obligations.FeedbackIsTheXorOfFourTappedBits : Prop :=
  (∀ (t : Taps) (s : RegWord),
    feedback t s = (BitVec.ofBool (s.getLsbD t.t0.toNat ^^ s.getLsbD t.t1.toNat ^^ s.getLsbD t.t2.toNat ^^
      s.getLsbD t.t3.toNat)).setWidth 63) ∧
  (∀ t : Taps, feedback t 0#63 = 0#63) ∧
  (∀ (s : RegWord) (w : WidthWord), s.toNat < 2 ^ w.toNat → tappedBit s w = 0#63) ∧
  (∀ (t : Taps) (a b : RegWord), feedback t (a ^^^ b) = feedback t a ^^^ feedback t b)

/-- R48: the step shifts right by one and puts the feedback bit in at bit w - 1, for every state below 2^w. -/
def Obligations.StepShiftsRightAndInsertsTheFeedbackBit : Prop :=
  ∀ (t : Taps) (w : Nat) (s : RegWord), 5 ≤ w → w ≤ 63 → s.toNat < 2 ^ w →
    ∀ i : Nat, (stepReg t w s).getLsbD i = if i + 1 = w then (feedback t s).getLsbD 0 else s.getLsbD (i + 1)

/-- R49: the step keeps a value below 2^w below 2^w. -/
def Obligations.StepStaysWithinTheWidth : Prop :=
  ∀ (t : Taps) (w : Nat) (s : RegWord), 5 ≤ w → w ≤ 63 → s.toNat < 2 ^ w → (stepReg t w s).toNat < 2 ^ w

/-- R50, first part: zero is a fixed point, and there is no run-time guard: ADVANCE at REG = 0 returns 0. -/
def Obligations.ZeroIsAFixedPoint : Prop :=
  (∀ (t : Taps) (w : Nat), stepReg t w 0#63 = 0#63) ∧
  ∀ s : State, s.reg = 0#63 → 5 ≤ s.width.toNat → s.exhausted = false →
    ∃ u, exec .advance s = .next u ∧ u.reg = 0#63 ∧ respondsWith 0#3 0#64 u

/-- R50, second part: under MAXLEN, as notes/assumptions/12.md reads it (DEDUCED), the step permutes the nonzero
states. -/
def Obligations.MaxLenStepPermutesNonzeroStates : Prop :=
  ∀ (t : Taps) (w : Nat), 5 ≤ w → w ≤ 63 → MaxLen t w →
    (∀ a : RegWord, a ≠ 0#63 → a.toNat < 2 ^ w → stepReg t w a ≠ 0#63) ∧
    (∀ a b : RegWord, a.toNat < 2 ^ w → b.toNat < 2 ^ w → stepReg t w a = stepReg t w b → a = b)

/-- R45: without a tap of 0 the step does not see bit 0, so it is not injective, and 1 steps to 0. That MAXLEN is then
false is said of MAXLEN as notes/assumptions/12.md reads it (DEDUCED). -/
def Obligations.WithoutTapZeroNoMaximalLength : Prop :=
  ∀ (t : Taps) (w : Nat), 5 ≤ w → w ≤ 63 → t.t0 ≠ 0#6 → t.t1 ≠ 0#6 → t.t2 ≠ 0#6 → t.t3 ≠ 0#6 →
    (∀ s : RegWord, stepReg t w s = stepReg t w (s ^^^ 1#63)) ∧ ¬ MaxLen t w ∧ stepReg t w 1#63 = 0#63

/-- R51: the cycle that MAXLEN, as notes/assumptions/12.md reads it (DEDUCED), gives from every nonzero w-bit state.
What a bounded generator then returns is BoundedValuesUnderMaxLen. -/
def Obligations.MaxLenGivesOneCycleOfNonzeroStates : Prop :=
  ∀ (t : Taps) (w : Nat) (s : RegWord), 5 ≤ w → w ≤ 63 → MaxLen t w → s ≠ 0#63 → s.toNat < 2 ^ w →
    (∀ k, stepIter t w k s ≠ 0#63) ∧
    (∀ j k, 1 ≤ j → j ≤ 2 ^ w - 1 → 1 ≤ k → k ≤ 2 ^ w - 1 → stepIter t w j s = stepIter t w k s → j = k) ∧
    (∀ x : RegWord, x ≠ 0#63 → x.toNat < 2 ^ w → ∃ k, 1 ≤ k ∧ k ≤ 2 ^ w - 1 ∧ stepIter t w k s = x) ∧
    stepIter t w (2 ^ w - 1) s = s ∧ stepIter t w (2 ^ w) s = stepReg t w s

/-! ## The initial register -/

/-- R55: under NARROW only bit 0 and the set bits of w - 2 can be set in the initial REG, so REG ≤ (w - 2) | 1 ≤ 61;
under FULL it keeps seed bits w - 1 .. 1. -/
def Obligations.InitialRegisterHasOnlyMaskedBits : Prop :=
  ∀ (wid : WidField) (seed : DataWord) (b : Bool) (s : State), seed ≠ 0#64 → 4 < wid.toNat → wid.toNat < 64 →
    (∃ t, exec (.construct wid seed b) s = .next t ∧
      (∀ i : Nat, t.reg.getLsbD i = true → i = 0 ∨ (wid.toNat - 2).testBit i = true) ∧
      t.reg.toNat ≤ (wid.toNat - 2) ||| 1 ∧ (wid.toNat - 2) ||| 1 ≤ 61) ∧
    (∀ i : Nat, 1 ≤ i →
      (constructWith .full wid seed b s).reg.getLsbD i = (decide (i < wid.toNat) && seed.getLsbD i))

/-- R56: after a successful CONSTRUCT REG is odd, nonzero and below 2^WIDTH, under either seed-mask mode. -/
def Obligations.ConstructStartsAtAnOddRegister : Prop :=
  ∀ (mode : SeedMaskMode) (wid : WidField) (seed : DataWord) (b : Bool) (s : State),
    (constructWith mode wid seed b s).rspStatus = 0#3 →
      (constructWith mode wid seed b s).reg.toNat % 2 = 1 ∧ (constructWith mode wid seed b s).reg ≠ 0#63 ∧
      (constructWith mode wid seed b s).reg.toNat < 2 ^ (constructWith mode wid seed b s).width.toNat

/-! ## Reset, the port and invariants -/

/-- R75: the state right after reset, and an edge with rst = 1 from any state, give these values and leave TAPS
alone; they are the registers of a successful CONSTRUCT 32, 8, 0 under either seed-mask mode. -/
def Obligations.ResetLoadsTheDefaultGenerator : Prop :=
  State.reset.HasResetValues ∧
  (∀ (e : PortInput) (s : State), e.rst = true →
    ∃ u, clockEdge e s = .next u ∧ u.HasResetValues ∧ sameSurroundings s u) ∧
  (∀ mode s, sameArchitecture State.reset (constructWith mode 32#8 8#64 false s) ∧
    (constructWith mode 32#8 8#64 false s).rspStatus = 0#3)

/-- R77: reset wins over a command at the same edge; the command is dropped and gets no response. -/
def Obligations.ResetBeatsACommandAtTheSameEdge : Prop :=
  ∀ (s : State) (e : PortInput) (rest : List PortInput), s.inputs = e :: rest → e.rst = true →
    step s = .next
      { reg := 9#63, width := 32#6, bounded := false, count := 0#64, rspValid := false, rspStatus := 0#3,
        rspData := 0#64, taps := s.taps, inputs := rest }

/-- R79: a step at whose edge a command is presented is exec of the decoded command, after the input is taken; the
same for a word placed by withFetchWord. -/
def Obligations.StepRunsThePresentedCommand : Prop :=
  (∀ (s : State) (c : CmdWord) (rest : List PortInput),
    s.inputs = { rst := false, cmdValid := true, cmd := c } :: rest →
      step s = exec (decode c) { s with inputs := rest } ∧ ∀ t, step s = .next t → t.rspValid = true) ∧
  (∀ (s : State) (c : CmdWord), step (s.withFetchWord 80 c.toNat) = exec (decode c) s)

/-- R79: at an edge with neither rst nor cmd_valid the response registers are cleared and the rest is unchanged, so a
response is visible for one cycle. An empty list of inputs is such an edge: the model's choice
(notes/assumptions/3.md). -/
def Obligations.EdgeWithoutCommandClearsTheResponse : Prop :=
  (∀ (s : State) (c : CmdWord) (rest : List PortInput),
    s.inputs = { rst := false, cmdValid := false, cmd := c } :: rest →
      step s = .next { s with rspValid := false, rspStatus := 0#3, rspData := 0#64, inputs := rest }) ∧
  (∀ s : State, s.inputs = [] → step s = .next { s with rspValid := false, rspStatus := 0#3, rspData := 0#64 })

/-- R20, R75: no edge writes the table TAPS, and each edge takes exactly the first listed input. -/
def Obligations.TapTableIsImmutable : Prop :=
  ∀ s t : State, step s = .next t → t.taps = s.taps ∧ t.inputs = s.inputs.tail

/-- R24, R64, R65, R79: after any edge the response registers hold a well-formed response. -/
def Obligations.EveryEdgeLeavesAWellFormedResponse : Prop :=
  ∀ s t : State, step s = .next t → t.ResponseInv

/-- R82 with R43: no word is ever refused; a step stops only where ADVANCE meets a WIDTH without a table entry
(notes/assumptions/7.md). -/
def Obligations.OnlyAMissingTableEntryStopsTheCore : Prop :=
  ∀ s : State, (∃ t, step s = .next t) ∨
    (step s = .fault .tapLookupOutsideTable ∧ s.width.toNat < 5 ∧ ∃ e rest, s.inputs = e :: rest ∧ e.rst = false ∧
      e.cmdValid = true ∧ e.cmd.extractLsb' 0 3 = 0b010#3)

/-- R12, R13, R19 and R24's form hold right after reset. -/
def Obligations.ResetMeetsTheInvariants : Prop :=
  State.reset.Inv ∧ State.reset.ResponseInv

/-- R12, R13, R19: from every state that meets the invariants the core goes on, and the next state meets them. -/
def Obligations.EveryStepKeepsTheInvariants : Prop :=
  ∀ s : State, s.Inv → ∃ t, step s = .next t ∧ t.Inv

/-! ## Encoding -/

/-- R34, R36, R40: decoding the encoded command gives it back, with every operand at every value. -/
def Obligations.DecodeOfEncodeIsTheCommand : Prop :=
  ∀ i : Instr, i.wellFormed = true → decode (encode i) = i ∧ decodeTableWord 80 (encode i).toNat = some i

/-- R38: words that agree on OP and on the fields that opcode uses are the same command: RSV and the unused fields
are ignored. -/
def Obligations.UnusedFieldsAreIgnored : Prop :=
  ∀ c d : CmdWord, c.extractLsb' 0 3 = d.extractLsb' 0 3 →
    (c.extractLsb' 0 3 = 0b001#3 →
      c.getLsbD 3 = d.getLsbD 3 ∧ c.extractLsb' 8 8 = d.extractLsb' 8 8 ∧ c.extractLsb' 16 64 = d.extractLsb' 16 64) →
    (c.extractLsb' 0 3 = 0b011#3 → c.extractLsb' 8 8 = d.extractLsb' 8 8) →
    decode c = decode d

/-- R34, R40: a word whose unused fields are 0 is the encoding of its command. -/
def Obligations.EncodeOfDecodeIsTheCanonicalWord : Prop :=
  ∀ c : CmdWord, c.extractLsb' 4 4 = 0#4 →
    (c.extractLsb' 0 3 = 0b001#3 → encode (decode c) = c) ∧
    (c.extractLsb' 0 3 = 0b011#3 → c.getLsbD 3 = false → c.extractLsb' 16 64 = 0#64 → encode (decode c) = c) ∧
    (c.extractLsb' 0 3 ≠ 0b001#3 → c.extractLsb' 0 3 ≠ 0b011#3 → c.getLsbD 3 = false → c.extractLsb' 8 8 = 0#8 →
      c.extractLsb' 16 64 = 0#64 → encode (decode c) = c)

/-- R42: the spec's encoded examples. -/
def Obligations.EncodedExamplesDecode : Prop :=
  (assemble (.construct 6 10 true) = 0x000000000000000A0609#80 ∧
    decode 0x000000000000000A0609#80 = .construct 6#8 10#64 true) ∧
  (assemble (.construct 32 8 false) = 0x00000000000000082001#80 ∧
    decode 0x00000000000000082001#80 = .construct 32#8 8#64 false) ∧
  (assemble .advance = 0x00000000000000000002#80 ∧ decode 0x00000000000000000002#80 = .advance) ∧
  (assemble (.period 6) = 0x00000000000000000603#80 ∧ decode 0x00000000000000000603#80 = .period 6#8) ∧
  (assemble .nop = 0x00000000000000000000#80 ∧ decode 0x00000000000000000000#80 = .nop)

/-- R40: a well-formed line's operands are the fields of its word, the seed in two's complement, and the unused
fields are 0. -/
def Obligations.AssembledOperandsAreTheFields : Prop :=
  (∀ (width : Nat) (seed : Int) (b : Bool), (AsmLine.construct width seed b).wellFormed = true →
    let c := assemble (.construct width seed b)
    (c.extractLsb' 0 3).toNat = 1 ∧ c.getLsbD 3 = b ∧ c.extractLsb' 4 4 = 0#4 ∧ (c.extractLsb' 8 8).toNat = width ∧
      ((c.extractLsb' 16 64).toNat : Int) = seed % 2 ^ 64) ∧
  (∀ width : Nat, (AsmLine.period width).wellFormed = true →
    (assemble (.period width)).toNat = 3 + 256 * width) ∧
  assemble .nop = 0#80 ∧ assemble .advance = 2#80 ∧ ∀ w : CmdWord, assemble (.word w) = w

/-- R41: NEXT and GENERATE are ADVANCE, and CONSTRUCT with no operands is CONSTRUCT 32, 8, 0. -/
def Obligations.PseudoCommandsExpand : Prop :=
  assemble .nextValue = assemble .advance ∧ assemble .generate = assemble .nextValue ∧
  assemble .constructDefault = assemble (.construct 32 8 false) ∧
  ∀ s : State, exec (decode (assemble .nextValue)) s = exec .advance s

/-! ## Sequences of commands -/

/-- R62: with BOUNDED = 1 exactly the first 2^WIDTH ADVANCEs after a CONSTRUCT succeed, the k-th of them returning
Step^k of the initial REG under the table's entry of WIDTH, and every later one gives SEQUENCE_EXHAUSTED and changes
nothing. -/
def Obligations.BoundedSequenceHasExactlyMaxPeriodElements : Prop :=
  ∀ (wid : WidField) (seed : DataWord) (s : State), seed ≠ 0#64 → 4 < wid.toNat → wid.toNat < 64 →
    ∃ c taps, exec (.construct wid seed true) s = .next c ∧ tapLookup c.taps c.width = some taps ∧
      (∀ k, k ≤ 2 ^ wid.toNat → ∃ t, execAll (List.replicate k .advance) c = .next t ∧ t.count.toNat = k ∧
        t.reg = stepIter taps wid.toNat k c.reg ∧ (1 ≤ k → t.rspStatus = 0#3 ∧ t.rspData.toNat = t.reg.toNat)) ∧
      (∀ k, 2 ^ wid.toNat < k → ∃ t u, execAll (List.replicate (2 ^ wid.toNat) .advance) c = .next t ∧
        execAll (List.replicate k .advance) c = .next u ∧ onlyResponds 3#3 0#64 t u)

/-- R62, R57: the same with other commands between: after a CONSTRUCT with BOUNDED = 1, n ADVANCEs among any commands
that are no successful CONSTRUCT leave COUNT and the number of steps REG has taken at the smaller of n and 2^WIDTH, and
the next ADVANCE answers the next value exactly while n < 2^WIDTH. -/
def Obligations.OtherCommandsDoNotDisturbTheBoundedSequence : Prop :=
  ∀ (wid : WidField) (seed : DataWord) (s : State) (is : List Instr), seed ≠ 0#64 → 4 < wid.toNat → wid.toNat < 64 →
    (∀ i ∈ is, i.validConstruct = false) →
    ∃ c taps t u, exec (.construct wid seed true) s = .next c ∧ tapLookup c.taps c.width = some taps ∧
      execAll is c = .next t ∧ exec .advance t = .next u ∧
      t.count.toNat = min (is.count .advance) (2 ^ wid.toNat) ∧
      t.reg = stepIter taps wid.toNat (min (is.count .advance) (2 ^ wid.toNat)) c.reg ∧
      (is.count .advance < 2 ^ wid.toNat →
        u.rspStatus = 0#3 ∧ u.rspData.toNat = (stepIter taps wid.toNat (is.count .advance + 1) c.reg).toNat) ∧
      (2 ^ wid.toNat ≤ is.count .advance → onlyResponds 3#3 0#64 t u)

/-- R51, last part, with R58: under MAXLEN, as notes/assumptions/12.md reads it (DEDUCED), the 2^WIDTH values a bounded
generator returns are each nonzero, and the 2^WIDTH-th repeats the first. -/
def Obligations.BoundedValuesUnderMaxLen : Prop :=
  ∀ (wid : WidField) (seed : DataWord) (s c : State) (taps : Taps), seed ≠ 0#64 → 4 < wid.toNat → wid.toNat < 64 →
    exec (.construct wid seed true) s = .next c → tapLookup c.taps c.width = some taps → MaxLen taps wid.toNat →
      (∀ k, 1 ≤ k → k ≤ 2 ^ wid.toNat → ∃ t, execAll (List.replicate k .advance) c = .next t ∧
        t.rspStatus = 0#3 ∧ t.rspData ≠ 0#64) ∧
      ∃ t u, execAll [.advance] c = .next t ∧ execAll (List.replicate (2 ^ wid.toNat) .advance) c = .next u ∧
        u.rspData = t.rspData

/-- R62, R18: with BOUNDED = 0 no number of ADVANCEs is ever exhausted, and COUNT counts them mod 2^64. -/
def Obligations.UnboundedSequenceNeverEnds : Prop :=
  ∀ s : State, 5 ≤ s.width.toNat → s.bounded = false → ∀ k,
    ∃ t, execAll (List.replicate (k + 1) .advance) s = .next t ∧ t.rspStatus = 0#3 ∧
      t.count.toNat = (s.count.toNat + (k + 1)) % 2 ^ 64 ∧ t.width = s.width ∧ t.bounded = false

/-- R54, R62: a valid CONSTRUCT forgets the generator before it, so every later sequence of commands gives the same
result (the same responses and state) from any two states that differ only in the registers. -/
def Obligations.ConstructReplaysTheSameSequence : Prop :=
  ∀ (wid : WidField) (seed : DataWord) (b : Bool) (s₁ s₂ : State) (is : List Instr),
    seed ≠ 0#64 → 4 < wid.toNat → wid.toNat < 64 → sameSurroundings s₁ s₂ →
      execAll (.construct wid seed b :: is) s₁ = execAll (.construct wid seed b :: is) s₂

/-- R59: after a successful CONSTRUCT, with no other successful CONSTRUCT in between, every successful ADVANCE returns
a value below 2^WIDTH, and under MAXLEN, as notes/assumptions/12.md reads it (DEDUCED), a value in
[1, 2^WIDTH - 1]. -/
def Obligations.AdvanceReturnsValuesInRange : Prop :=
  ∀ (wid : WidField) (seed : DataWord) (b : Bool) (s c : State),
    exec (.construct wid seed b) s = .next c → c.rspStatus = 0#3 →
    ∀ (is : List Instr) (u v : State), (∀ i ∈ is, i.validConstruct = false) →
      execAll is c = .next u → exec .advance u = .next v → v.rspStatus = 0#3 →
        v.rspData.toNat < 2 ^ wid.toNat ∧
        ∀ taps, tapLookup c.taps c.width = some taps → MaxLen taps wid.toNat →
          1 ≤ v.rspData.toNat ∧ v.rspData.toNat ≤ 2 ^ wid.toNat - 1

/-- R59, R50, R57 as one step: from a state that meets the invariants with REG nonzero and an entry of WIDTH that
meets MAXLEN (notes/assumptions/12.md, DEDUCED), every edge leads to a state that meets the invariants with REG
nonzero, and while WIDTH stays the same to one whose entry meets MAXLEN again. A reset or a CONSTRUCT to another width
selects another entry, of which nothing is assumed. An accepted ADVANCE that succeeds returns a value in
[1, 2^WIDTH - 1]. -/
def Obligations.StepKeepsAMaximalGeneratorWhileWidthStays : Prop :=
  ∀ s : State, s.MaxLenInv → ∃ t, step s = .next t ∧ t.Inv ∧ t.reg ≠ 0#63 ∧ (t.width = s.width → t.MaxLenInv) ∧
    (∀ c rest, s.inputs = { rst := false, cmdValid := true, cmd := c } :: rest → c.extractLsb' 0 3 = 0b010#3 →
      t.rspStatus = 0#3 → 1 ≤ t.rspData.toNat ∧ t.rspData.toNat ≤ 2 ^ s.width.toNat - 1)

/-- R31, R82: commands presented at consecutive edges take effect in the order presented, each seeing the effects of
those before it and nothing of those after: the run of the core is the sequence of the commands' transaction-level
steps. -/
def Obligations.PresentedCommandsTakeEffectInOrder : Prop :=
  ∀ (cs : List CmdWord) (s : State),
    s.inputs = cs.map (fun c => { rst := false, cmdValid := true, cmd := c }) →
      runEdges cs.length s = execAll (cs.map decode) { s with inputs := [] }

/-- R82: the host gets back one response per accepted command. -/
def Obligations.OneResponsePerAcceptedCommand : Prop :=
  ∀ (s : State), s.Inv → ∀ n,
    (responses n s).length = ((s.inputs.take n).filter (fun e => e.cmdValid && !e.rst)).length

/-- R33: an edge of one core leaves every other core and the common TAPS as they are, and depends on that core's own
state and the common TAPS alone; edges of different cores have no order between them. That one core takes an edge at a
time is the model's choice (notes/assumptions/16.md, DESIGN CHOICE). -/
def Obligations.CoresShareNoMutableState : Prop :=
  ∀ (k : Nat) (G : Cores),
    (stepCore k G).taps = G.taps ∧ (stepCore k G).slots.length = G.slots.length ∧
    (∀ j, j ≠ k → (stepCore k G).slots[j]? = G.slots[j]?) ∧
    (∀ s, G.slots[k]? = some (.running s) → s.taps = G.taps →
      (stepCore k G).slots[k]? = some (CoreSlot.ofOutcome (step s))) ∧
    (∀ j, j ≠ k → stepCore j (stepCore k G) = stepCore k (stepCore j G))

/-- R33, R20: the TAPS contents are common to all cores right after reset, and every edge of every core keeps them so
and unchanged. The group is the model's (notes/assumptions/16.md). -/
def Obligations.TapContentsStayCommonToAllCores : Prop :=
  (∀ n, (Cores.reset n).TapsCommon ∧ (Cores.reset n).taps = State.reset.taps) ∧
  ∀ (k : Nat) (G : Cores), G.TapsCommon → (stepCore k G).TapsCommon ∧ (stepCore k G).taps = G.taps
end

