-- ==== Sys2Proof/Laws/State.lean ====
section
/-! SUPPORT. One lemma per field per update of `State`, so that no later proof unfolds a record update. -/

namespace Sys2Proof.Machine

@[simp] theorem respond_reg (c : Status) (d : DataWord) (s : State) : (respond c d s).reg = s.reg := rfl
@[simp] theorem respond_width (c : Status) (d : DataWord) (s : State) : (respond c d s).width = s.width := rfl
@[simp] theorem respond_bounded (c : Status) (d : DataWord) (s : State) : (respond c d s).bounded = s.bounded := rfl
@[simp] theorem respond_count (c : Status) (d : DataWord) (s : State) : (respond c d s).count = s.count := rfl
@[simp] theorem respond_rspValid (c : Status) (d : DataWord) (s : State) : (respond c d s).rspValid = true := rfl
@[simp] theorem respond_rspStatus (c : Status) (d : DataWord) (s : State) : (respond c d s).rspStatus = c.code := rfl
@[simp] theorem respond_rspData (c : Status) (d : DataWord) (s : State) : (respond c d s).rspData = d := rfl
@[simp] theorem respond_taps (c : Status) (d : DataWord) (s : State) : (respond c d s).taps = s.taps := rfl
@[simp] theorem respond_inputs (c : Status) (d : DataWord) (s : State) : (respond c d s).inputs = s.inputs := rfl

@[simp] theorem raise_reg (c : Status) (s : State) : (raise c s).reg = s.reg := rfl
@[simp] theorem raise_width (c : Status) (s : State) : (raise c s).width = s.width := rfl
@[simp] theorem raise_bounded (c : Status) (s : State) : (raise c s).bounded = s.bounded := rfl
@[simp] theorem raise_count (c : Status) (s : State) : (raise c s).count = s.count := rfl
@[simp] theorem raise_rspValid (c : Status) (s : State) : (raise c s).rspValid = true := rfl
@[simp] theorem raise_rspStatus (c : Status) (s : State) : (raise c s).rspStatus = c.code := rfl
@[simp] theorem raise_rspData (c : Status) (s : State) : (raise c s).rspData = 0#64 := rfl
@[simp] theorem raise_taps (c : Status) (s : State) : (raise c s).taps = s.taps := rfl
@[simp] theorem raise_inputs (c : Status) (s : State) : (raise c s).inputs = s.inputs := rfl

@[simp] theorem writeConfiguration_reg (r : RegWord) (w : WidthWord) (b : Bool) (s : State) : (writeConfiguration r w b s).reg = r := rfl
@[simp] theorem writeConfiguration_width (r : RegWord) (w : WidthWord) (b : Bool) (s : State) : (writeConfiguration r w b s).width = w := rfl
@[simp] theorem writeConfiguration_bounded (r : RegWord) (w : WidthWord) (b : Bool) (s : State) : (writeConfiguration r w b s).bounded = b := rfl
@[simp] theorem writeConfiguration_count (r : RegWord) (w : WidthWord) (b : Bool) (s : State) : (writeConfiguration r w b s).count = 0#64 := rfl
@[simp] theorem writeConfiguration_rspValid (r : RegWord) (w : WidthWord) (b : Bool) (s : State) : (writeConfiguration r w b s).rspValid = s.rspValid := rfl
@[simp] theorem writeConfiguration_rspStatus (r : RegWord) (w : WidthWord) (b : Bool) (s : State) : (writeConfiguration r w b s).rspStatus = s.rspStatus := rfl
@[simp] theorem writeConfiguration_rspData (r : RegWord) (w : WidthWord) (b : Bool) (s : State) : (writeConfiguration r w b s).rspData = s.rspData := rfl
@[simp] theorem writeConfiguration_taps (r : RegWord) (w : WidthWord) (b : Bool) (s : State) : (writeConfiguration r w b s).taps = s.taps := rfl
@[simp] theorem writeConfiguration_inputs (r : RegWord) (w : WidthWord) (b : Bool) (s : State) : (writeConfiguration r w b s).inputs = s.inputs := rfl

@[simp] theorem writeAdvance_reg (r : RegWord) (s : State) : (writeAdvance r s).reg = r := rfl
@[simp] theorem writeAdvance_width (r : RegWord) (s : State) : (writeAdvance r s).width = s.width := rfl
@[simp] theorem writeAdvance_bounded (r : RegWord) (s : State) : (writeAdvance r s).bounded = s.bounded := rfl
@[simp] theorem writeAdvance_count (r : RegWord) (s : State) : (writeAdvance r s).count = s.count + 1#64 := rfl
@[simp] theorem writeAdvance_rspValid (r : RegWord) (s : State) : (writeAdvance r s).rspValid = s.rspValid := rfl
@[simp] theorem writeAdvance_rspStatus (r : RegWord) (s : State) : (writeAdvance r s).rspStatus = s.rspStatus := rfl
@[simp] theorem writeAdvance_rspData (r : RegWord) (s : State) : (writeAdvance r s).rspData = s.rspData := rfl
@[simp] theorem writeAdvance_taps (r : RegWord) (s : State) : (writeAdvance r s).taps = s.taps := rfl
@[simp] theorem writeAdvance_inputs (r : RegWord) (s : State) : (writeAdvance r s).inputs = s.inputs := rfl

@[simp] theorem loadReset_reg (s : State) : (loadReset s).reg = 9#63 := rfl
@[simp] theorem loadReset_width (s : State) : (loadReset s).width = 32#6 := rfl
@[simp] theorem loadReset_bounded (s : State) : (loadReset s).bounded = false := rfl
@[simp] theorem loadReset_count (s : State) : (loadReset s).count = 0#64 := rfl
@[simp] theorem loadReset_rspValid (s : State) : (loadReset s).rspValid = false := rfl
@[simp] theorem loadReset_rspStatus (s : State) : (loadReset s).rspStatus = 0#3 := rfl
@[simp] theorem loadReset_rspData (s : State) : (loadReset s).rspData = 0#64 := rfl
@[simp] theorem loadReset_taps (s : State) : (loadReset s).taps = s.taps := rfl
@[simp] theorem loadReset_inputs (s : State) : (loadReset s).inputs = s.inputs := rfl

@[simp] theorem idleEdge_reg (s : State) : (idleEdge s).reg = s.reg := rfl
@[simp] theorem idleEdge_width (s : State) : (idleEdge s).width = s.width := rfl
@[simp] theorem idleEdge_bounded (s : State) : (idleEdge s).bounded = s.bounded := rfl
@[simp] theorem idleEdge_count (s : State) : (idleEdge s).count = s.count := rfl
@[simp] theorem idleEdge_rspValid (s : State) : (idleEdge s).rspValid = false := rfl
@[simp] theorem idleEdge_rspStatus (s : State) : (idleEdge s).rspStatus = 0#3 := rfl
@[simp] theorem idleEdge_rspData (s : State) : (idleEdge s).rspData = 0#64 := rfl
@[simp] theorem idleEdge_taps (s : State) : (idleEdge s).taps = s.taps := rfl
@[simp] theorem idleEdge_inputs (s : State) : (idleEdge s).inputs = s.inputs := rfl

@[simp] theorem takeInput_reg (s : State) : (takeInput s).reg = s.reg := rfl
@[simp] theorem takeInput_width (s : State) : (takeInput s).width = s.width := rfl
@[simp] theorem takeInput_bounded (s : State) : (takeInput s).bounded = s.bounded := rfl
@[simp] theorem takeInput_count (s : State) : (takeInput s).count = s.count := rfl
@[simp] theorem takeInput_rspValid (s : State) : (takeInput s).rspValid = s.rspValid := rfl
@[simp] theorem takeInput_rspStatus (s : State) : (takeInput s).rspStatus = s.rspStatus := rfl
@[simp] theorem takeInput_rspData (s : State) : (takeInput s).rspData = s.rspData := rfl
@[simp] theorem takeInput_taps (s : State) : (takeInput s).taps = s.taps := rfl
@[simp] theorem takeInput_inputs (s : State) : (takeInput s).inputs = s.inputs.tail := rfl

end Sys2Proof.Machine
end

