-- ==== Sys2Proof/Laws/Ops.lean ====
section
/-! SUPPORT. One lemma per shared operation: everything it can do, for later proofs to cite. -/

namespace Sys2Proof.Machine

theorem respond_spec (c : Status) (d : DataWord) (s : State) : onlyResponds c.code d s (respond c d s) := by
  simp [onlyResponds, sameArchitecture, sameSurroundings, respondsWith]

theorem raise_spec (c : Status) (s : State) : onlyResponds c.code 0#64 s (raise c s) :=
  respond_spec c 0#64 s

theorem Status.code_injective {c d : Status} (h : c.code = d.code) : c = d := by
  revert h
  cases c <;> cases d <;> decide

theorem Status.code_le (c : Status) : c.code.toNat ≤ 5 := by
  cases c <;> decide

theorem widthSupported_iff (wid : WidField) : widthSupported wid = true ↔ 4 < wid.toNat ∧ wid.toNat < 64 := by
  simp [widthSupported, BitVec.lt_def]

theorem periodTooWide_iff (wid : WidField) : periodTooWide wid = true ↔ 63 < wid.toNat := by
  simp [periodTooWide, BitVec.lt_def]

theorem powerOfTwo_toNat {n : Nat} (h : n < 64) : (powerOfTwo n).toNat = 2 ^ n := by
  have hlt : (2 : Nat) ^ n < 2 ^ 64 := Nat.pow_lt_pow_right (by decide) h
  rw [powerOfTwo, BitVec.toNat_shiftLeft, Nat.shiftLeft_eq]
  simpa using Nat.mod_eq_of_lt hlt

theorem widthOfField_toNat {wid : WidField} (h : wid.toNat < 64) : (widthOfField wid).toNat = wid.toNat := by
  simpa [widthOfField] using Nat.mod_eq_of_lt h

theorem exhausted_iff (s : State) :
    s.exhausted = true ↔ s.bounded = true ∧ 2 ^ s.width.toNat ≤ s.count.toNat := by
  have hw : (powerOfTwo s.width.toNat).toNat = 2 ^ s.width.toNat := powerOfTwo_toNat s.width.isLt
  simp [State.exhausted, State.maxp, BitVec.le_def, hw]

/-- The lookup succeeds exactly for the widths that have an entry, with the entry of that width (R43). -/
theorem tapLookup_cases (T : TapTable) (w : WidthWord) :
    (w.toNat < 5 ∧ tapLookup T w = none) ∨
    (∃ h : w.toNat - 5 < 59, 5 ≤ w.toNat ∧ tapLookup T w = some T[w.toNat - 5]) := by
  have hw := w.isLt
  by_cases h : 5 ≤ w.toNat
  · exact .inr ⟨by omega, h, dif_pos h⟩
  · exact .inl ⟨by omega, dif_neg h⟩

end Sys2Proof.Machine
end

