-- ==== Sys2Proof/Laws/Exec.lean ====
section
/-! SUPPORT. What each meaning can do, said once with its conditions. -/

namespace Sys2Proof.Machine

/-- CONSTRUCT ends in one of three ways (R54). -/
theorem constructWith_cases (mode : SeedMaskMode) (wid : WidField) (seed : DataWord) (b : Bool) (s : State) :
    (seed = 0#64 ∧ constructWith mode wid seed b s = raise .invalidSeed s) ∨
    (seed ≠ 0#64 ∧ ¬ (4 < wid.toNat ∧ wid.toNat < 64) ∧ constructWith mode wid seed b s = raise .invalidWidth s) ∨
    (seed ≠ 0#64 ∧ (4 < wid.toNat ∧ wid.toNat < 64) ∧ constructWith mode wid seed b s =
      respond .ok 0#64 (writeConfiguration (initialReg mode wid seed) (widthOfField wid) b s)) := by
  by_cases hs : seed = 0#64
  · exact .inl ⟨hs, if_pos hs⟩
  · by_cases hw : widthSupported wid = true
    · refine .inr (.inr ⟨hs, (widthSupported_iff wid).1 hw, ?_⟩)
      rw [constructWith, if_neg hs, if_pos hw]
    · refine .inr (.inl ⟨hs, fun h => hw ((widthSupported_iff wid).2 h), ?_⟩)
      rw [constructWith, if_neg hs, if_neg hw]

/-- ADVANCE ends in one of three ways (R58; the fault is notes/assumptions/7.md's). -/
theorem execAdvance_cases (s : State) :
    (s.exhausted = true ∧ execAdvance s = .next (raise .sequenceExhausted s)) ∨
    (s.exhausted = false ∧ s.width.toNat < 5 ∧ execAdvance s = .fault .tapLookupOutsideTable) ∨
    (s.exhausted = false ∧ 5 ≤ s.width.toNat ∧ ∃ t, tapLookup s.taps s.width = some t ∧
      execAdvance s = .next (respond .ok ((stepReg t s.width.toNat s.reg).setWidth 64)
        (writeAdvance (stepReg t s.width.toNat s.reg) s))) := by
  cases hx : s.exhausted with
  | true => exact .inl ⟨rfl, by simp [execAdvance, hx]⟩
  | false =>
    rcases tapLookup_cases s.taps s.width with ⟨hw, hn⟩ | ⟨hi, hw, ht⟩
    · exact .inr (.inl ⟨rfl, hw, by simp [execAdvance, hx, hn]⟩)
    · exact .inr (.inr ⟨rfl, hw, s.taps[s.width.toNat - 5], ht, by simp [execAdvance, hx, ht]⟩)

/-- PERIOD ends in one of two ways (R60). -/
theorem execPeriod_cases (wid : WidField) (s : State) :
    (63 < wid.toNat ∧ execPeriod wid s = .next (raise .periodRange s)) ∨
    (wid.toNat ≤ 63 ∧ execPeriod wid s = .next (respond .ok (powerOfTwo wid.toNat) s)) := by
  by_cases h : periodTooWide wid = true
  · exact .inl ⟨(periodTooWide_iff wid).1 h, if_pos h⟩
  · refine .inr ⟨?_, if_neg h⟩
    rw [periodTooWide_iff] at h
    omega

/-- Every way a command can end, over all commands. -/
theorem exec_cases (i : Instr) (s : State) :
    (∃ c d, exec i s = .next (respond c d s) ∧ (c ≠ .ok → d = 0#64) ∧ (c = .ok → i = .nop ∨ ∃ wid, i = .period wid)) ∨
    (∃ r w b, exec i s = .next (respond .ok 0#64 (writeConfiguration r w b s)) ∧ ∃ wid seed, i = .construct wid seed b) ∨
    (∃ r : RegWord, exec i s = .next (respond .ok (r.setWidth 64) (writeAdvance r s)) ∧ i = .advance) ∨
    (exec i s = .fault .tapLookupOutsideTable ∧ i = .advance ∧ s.width.toNat < 5) := by
  cases i with
  | nop => exact .inl ⟨.ok, 0#64, rfl, by simp, by simp⟩
  | construct wid seed b =>
    rcases constructWith_cases Config.seedMaskMode wid seed b s with ⟨-, h⟩ | ⟨-, -, h⟩ | ⟨-, -, h⟩
    · exact .inl ⟨.invalidSeed, 0#64, congrArg Host.Outcome.next h, by simp, by simp⟩
    · exact .inl ⟨.invalidWidth, 0#64, congrArg Host.Outcome.next h, by simp, by simp⟩
    · exact .inr (.inl ⟨_, _, b, congrArg Host.Outcome.next h, wid, seed, rfl⟩)
  | advance =>
    rcases execAdvance_cases s with ⟨-, h⟩ | ⟨-, hw, h⟩ | ⟨-, -, t, -, h⟩
    · exact .inl ⟨.sequenceExhausted, 0#64, h, by simp, by simp⟩
    · exact .inr (.inr (.inr ⟨h, rfl, hw⟩))
    · exact .inr (.inr (.inl ⟨_, h, rfl⟩))
  | period wid =>
    rcases execPeriod_cases wid s with ⟨-, h⟩ | ⟨-, h⟩
    · exact .inl ⟨.periodRange, 0#64, h, by simp, by simp⟩
    · exact .inl ⟨.ok, _, h, by simp, by simp⟩
  | reserved4 => exact .inl ⟨.illegalCommand, 0#64, rfl, by simp, by simp⟩
  | reserved5 => exact .inl ⟨.illegalCommand, 0#64, rfl, by simp, by simp⟩
  | reserved6 => exact .inl ⟨.illegalCommand, 0#64, rfl, by simp, by simp⟩
  | reserved7 => exact .inl ⟨.illegalCommand, 0#64, rfl, by simp, by simp⟩

/-- A command that is no successful CONSTRUCT writes the response alone, is an ADVANCE that steps REG by the entry of
WIDTH, or is the ADVANCE that faults. -/
theorem exec_cases_of_not_validConstruct {i : Instr} (h : i.validConstruct = false) (s : State) :
    (∃ c d, exec i s = .next (respond c d s) ∧ (i = .advance → s.exhausted = true ∧ c = .sequenceExhausted ∧ d = 0#64)) ∨
    (i = .advance ∧ s.exhausted = false ∧ 5 ≤ s.width.toNat ∧ ∃ t, tapLookup s.taps s.width = some t ∧
      exec i s = .next (respond .ok ((stepReg t s.width.toNat s.reg).setWidth 64)
        (writeAdvance (stepReg t s.width.toNat s.reg) s))) ∨
    (i = .advance ∧ s.width.toNat < 5 ∧ exec i s = .fault .tapLookupOutsideTable) := by
  cases i with
  | nop => exact .inl ⟨.ok, 0#64, rfl, by simp⟩
  | construct wid seed b =>
    have hv : ¬ (seed ≠ 0#64 ∧ 4 < wid.toNat ∧ wid.toNat < 64) := by
      simpa only [Instr.validConstruct, decide_eq_false_iff_not] using h
    rcases constructWith_cases Config.seedMaskMode wid seed b s with ⟨-, e⟩ | ⟨-, -, e⟩ | ⟨hs, hw, -⟩
    · exact .inl ⟨.invalidSeed, 0#64, congrArg Host.Outcome.next e, by simp⟩
    · exact .inl ⟨.invalidWidth, 0#64, congrArg Host.Outcome.next e, by simp⟩
    · exact absurd ⟨hs, hw⟩ hv
  | advance =>
    rcases execAdvance_cases s with ⟨hx, e⟩ | ⟨-, hw, e⟩ | ⟨hx, hw, t, ht, e⟩
    · exact .inl ⟨.sequenceExhausted, 0#64, e, fun _ => ⟨hx, rfl, rfl⟩⟩
    · exact .inr (.inr ⟨rfl, hw, e⟩)
    · exact .inr (.inl ⟨rfl, hx, hw, t, ht, e⟩)
  | period wid =>
    rcases execPeriod_cases wid s with ⟨-, e⟩ | ⟨-, e⟩
    · exact .inl ⟨.periodRange, 0#64, e, by simp⟩
    · exact .inl ⟨.ok, _, e, by simp⟩
  | reserved4 => exact .inl ⟨.illegalCommand, 0#64, rfl, by simp⟩
  | reserved5 => exact .inl ⟨.illegalCommand, 0#64, rfl, by simp⟩
  | reserved6 => exact .inl ⟨.illegalCommand, 0#64, rfl, by simp⟩
  | reserved7 => exact .inl ⟨.illegalCommand, 0#64, rfl, by simp⟩

/-- No command writes TAPS or the inputs to come. -/
theorem exec_keeps_surroundings {i : Instr} {s t : State} (h : exec i s = .next t) : sameSurroundings s t := by
  rcases exec_cases i s with ⟨c, d, e, -⟩ | ⟨r, w, b, e, -⟩ | ⟨r, e, -⟩ | ⟨e, -⟩ <;> rw [e] at h <;> cases h <;>
    exact ⟨rfl, rfl⟩

/-- No command reads the inputs to come: the result is the same with others in their place. -/
theorem exec_with_inputs (i : Instr) (s : State) (l : List PortInput) :
    exec i { s with inputs := l } =
      match exec i s with
      | .next t => .next { t with inputs := l }
      | .fault r => .fault r
      | .refused r => .refused r := by
  cases i with
  | nop => rfl
  | construct wid seed b =>
    refine congrArg Host.Outcome.next ?_
    unfold constructWith
    split
    · rfl
    · split <;> rfl
  | advance =>
    have hx : State.exhausted { s with inputs := l } = s.exhausted := rfl
    change execAdvance _ = match execAdvance s with | .next t => _ | .fault r => _ | .refused r => _
    unfold execAdvance
    rw [hx]
    cases s.exhausted with
    | true => rfl
    | false =>
      simp only [Bool.false_eq_true, if_false]
      cases tapLookup s.taps s.width <;> rfl
  | period wid =>
    change execPeriod _ _ = match execPeriod wid s with | .next t => _ | .fault r => _ | .refused r => _
    unfold execPeriod
    split <;> rfl
  | reserved4 => rfl
  | reserved5 => rfl
  | reserved6 => rfl
  | reserved7 => rfl

end Sys2Proof.Machine
end

