-- ==== Sys2Proof/Laws/Cores.lean ====
section
/-! SUPPORT. One core's edge within a group: what it does to the group's fields. -/

namespace Sys2Proof.Machine

@[simp] theorem stepCore_taps (k : Nat) (G : Cores) : (stepCore k G).taps = G.taps := rfl

@[simp] theorem stepCore_slots (k : Nat) (G : Cores) :
    (stepCore k G).slots = G.slots.modify k (stepSlot G.taps) := rfl

/-- Over its own table a running core's edge is its own step. -/
theorem stepSlot_running {T : TapTable} {s : State} (h : s.taps = T) :
    stepSlot T (.running s) = CoreSlot.ofOutcome (step s) := by
  subst h
  rfl

/-- A place that runs after an edge ran before it. -/
theorem running_of_stepSlot {T : TapTable} {o : CoreSlot} {t : State} (h : stepSlot T o = .running t) :
    ∃ s, o = .running s ∧ step { s with taps := T } = .next t := by
  cases o with
  | running s =>
    refine ⟨s, rfl, ?_⟩
    cases e : step { s with taps := T } <;> simp_all [stepSlot, CoreSlot.ofOutcome]
  | faulted r => cases h
  | refused r => cases h

end Sys2Proof.Machine
end

