-- ==== Sys2Proof/Laws/Decode.lean ====
section
/-! SUPPORT. What each field of a packed command word is, and what the decoder looks at. -/

namespace Sys2Proof

/-- Every bit of a packed word: OP, B, RSV = 0, WID, SEED from bit 0 up (R34). -/
theorem packFields_getLsbD (op : BitVec 3) (b : Bool) (wid : WidField) (seed : DataWord) (i : Nat) :
    (packFields op b wid seed).getLsbD i =
      if i < 3 then op.getLsbD i
      else if i < 4 then b
      else if i < 8 then false
      else if i < 16 then wid.getLsbD (i - 8)
      else seed.getLsbD (i - 16) := by
  have e1 := BitVec.getLsbD_append (x := seed ++ wid ++ 0#4 ++ BitVec.ofBool b) (y := op) (i := i)
  have e2 := BitVec.getLsbD_append (x := seed ++ wid ++ 0#4) (y := BitVec.ofBool b) (i := i - 3)
  have e3 := BitVec.getLsbD_append (x := seed ++ wid) (y := 0#4) (i := i - 3 - 1)
  have e4 := BitVec.getLsbD_append (x := seed) (y := wid) (i := i - 3 - 1 - 4)
  refine Eq.trans e1 ?_
  rw [e2, e3, e4]
  have hwid : i - 3 - 1 - 4 = i - 8 := by omega
  have hseed : i - 8 - 8 = i - 16 := by omega
  rw [hwid, hseed]
  by_cases h3 : i < 3
  · simp [h3]
  · by_cases h4 : i < 4
    · obtain rfl : i = 3 := by omega
      cases b <;> simp
    · have g4 : ¬ i - 3 < 1 := by omega
      by_cases h8 : i < 8
      · have g8 : i - 3 - 1 < 4 := by omega
        simp [h3, h4, h8, g4, g8]
      · have g8 : ¬ i - 3 - 1 < 4 := by omega
        by_cases h16 : i < 16
        · have g16 : i - 8 < 8 := by omega
          simp [h3, h4, h8, h16, g4, g8, g16]
        · have g16 : ¬ i - 8 < 8 := by omega
          simp [h3, h4, h8, h16, g4, g8, g16]

theorem fieldOp_packFields (op : BitVec 3) (b : Bool) (wid : WidField) (seed : DataWord) :
    fieldOp (packFields op b wid seed) = op := by
  apply BitVec.eq_of_getLsbD_eq
  intro i hi
  simp [fieldOp, packFields_getLsbD, hi]

theorem fieldB_packFields (op : BitVec 3) (b : Bool) (wid : WidField) (seed : DataWord) :
    fieldB (packFields op b wid seed) = b := by
  rw [fieldB, packFields_getLsbD]
  simp

theorem fieldWid_packFields (op : BitVec 3) (b : Bool) (wid : WidField) (seed : DataWord) :
    fieldWid (packFields op b wid seed) = wid := by
  apply BitVec.eq_of_getLsbD_eq
  intro i hi
  have h3 : ¬ 8 + i < 3 := by omega
  have h4 : ¬ 8 + i < 4 := by omega
  have h8 : ¬ 8 + i < 8 := by omega
  have h16 : 8 + i < 16 := by omega
  rw [fieldWid, BitVec.getLsbD_extractLsb', packFields_getLsbD]
  simp [hi, h3, h4, h8, h16]

theorem fieldSeed_packFields (op : BitVec 3) (b : Bool) (wid : WidField) (seed : DataWord) :
    fieldSeed (packFields op b wid seed) = seed := by
  apply BitVec.eq_of_getLsbD_eq
  intro i hi
  have h3 : ¬ 16 + i < 3 := by omega
  have h4 : ¬ 16 + i < 4 := by omega
  have h8 : ¬ 16 + i < 8 := by omega
  have h16 : ¬ 16 + i < 16 := by omega
  rw [fieldSeed, BitVec.getLsbD_extractLsb', packFields_getLsbD]
  simp [hi, h3, h4, h8, h16]

/-- The decoder depends on OP and on the three operand fields alone. -/
theorem decode_congr {c d : CmdWord} (hop : fieldOp c = fieldOp d) (hb : fieldB c = fieldB d)
    (hw : fieldWid c = fieldWid d) (hs : fieldSeed c = fieldSeed d) : decode c = decode d := by
  unfold decode
  rw [hop, hb, hw, hs]

end Sys2Proof
end

