-- ==== Sys2Proof/Laws/PerInstr.lean ====
section
/-! SUPPORT. One lemma per command about its encoding: the word carries the command's opcode in `cmd[2:0]`, and
re-packing the word's own fields gives the word, so RSV is 0 (R34, R40). -/

namespace Sys2Proof.Laws.EncodedFields

/-- The encoded word has the command's opcode and RSV = 0. -/
def Statement (i : Instr) : Prop :=
  fieldOp (encode i) = i.opcode ∧
  packFields (fieldOp (encode i)) (fieldB (encode i)) (fieldWid (encode i)) (fieldSeed (encode i)) = encode i

theorem nop : Statement .nop := by
  simp only [Statement, encode, fieldOp_packFields, fieldB_packFields, fieldWid_packFields, fieldSeed_packFields, and_self]

theorem construct (wid : WidField) (seed : DataWord) (b : Bool) : Statement (.construct wid seed b) := by
  simp only [Statement, encode, fieldOp_packFields, fieldB_packFields, fieldWid_packFields, fieldSeed_packFields, and_self]

theorem advance : Statement .advance := by
  simp only [Statement, encode, fieldOp_packFields, fieldB_packFields, fieldWid_packFields, fieldSeed_packFields, and_self]

theorem period (wid : WidField) : Statement (.period wid) := by
  simp only [Statement, encode, fieldOp_packFields, fieldB_packFields, fieldWid_packFields, fieldSeed_packFields, and_self]

theorem reserved4 : Statement .reserved4 := by
  simp only [Statement, encode, fieldOp_packFields, fieldB_packFields, fieldWid_packFields, fieldSeed_packFields, and_self]

theorem reserved5 : Statement .reserved5 := by
  simp only [Statement, encode, fieldOp_packFields, fieldB_packFields, fieldWid_packFields, fieldSeed_packFields, and_self]

theorem reserved6 : Statement .reserved6 := by
  simp only [Statement, encode, fieldOp_packFields, fieldB_packFields, fieldWid_packFields, fieldSeed_packFields, and_self]

theorem reserved7 : Statement .reserved7 := by
  simp only [Statement, encode, fieldOp_packFields, fieldB_packFields, fieldWid_packFields, fieldSeed_packFields, and_self]

end Sys2Proof.Laws.EncodedFields
end

