-- ==== Sys2Proof/Laws/Step.lean ====
section
/-! SUPPORT. The three kinds of edge (R77, R79). -/

namespace Sys2Proof.Machine

/-- An edge is a reset, an accepted command or an idle edge. -/
theorem clockEdge_cases (e : PortInput) (s : State) :
    (e.rst = true ∧ clockEdge e s = .next (loadReset s)) ∨
    (e.rst = false ∧ e.cmdValid = true ∧ clockEdge e s = exec (decode e.cmd) s) ∨
    (e.rst = false ∧ e.cmdValid = false ∧ clockEdge e s = .next (idleEdge s)) := by
  cases hr : e.rst with
  | true => exact .inl ⟨rfl, by simp [clockEdge, hr]⟩
  | false =>
    cases hv : e.cmdValid with
    | true => exact .inr (.inl ⟨rfl, rfl, by simp [clockEdge, hr, hv]⟩)
    | false => exact .inr (.inr ⟨rfl, rfl, by simp [clockEdge, hr, hv]⟩)

/-- A step is the edge of the first listed input, which it takes. -/
theorem step_of_inputs {s : State} {e : PortInput} {rest : List PortInput} (h : s.inputs = e :: rest) :
    step s = clockEdge e { s with inputs := rest } := by
  simp [step, nextInput, takeInput, h]

end Sys2Proof.Machine
end

