-- ==== Sys2Proof/Tests/Slice0.lean ====
section
/-! SUPPORT. Tests. Expected values are the spec's own vectors (spec/95_test_vectors.md, numbered F, S or P there, and
spec/30_encoding.md R42) unless a line says otherwise. The tap tables are example values, not the hardware's. -/

namespace Sys2Proof.Tests

open Sys2Proof Sys2Proof.Machine

/-! ## Helpers -/

/-- TAPS_EX(5), TAPS_EX(6), TAPS_EX(8) and the taps of F15 (spec/95_test_vectors.md). -/
def ex5 : Taps := ⟨0#6, 1#6, 2#6, 3#6⟩
@[inherit_doc ex5] def ex6 : Taps := ⟨0#6, 1#6, 3#6, 4#6⟩
@[inherit_doc ex5] def ex8 : Taps := ⟨0#6, 2#6, 3#6, 4#6⟩
@[inherit_doc ex5] def ex63 : Taps := ⟨0#6, 1#6, 3#6, 62#6⟩

/-- A table with those entries. -/
def exTable : TapTable :=
  (((Vector.replicate 59 ex5).set 1 ex6).set 3 ex8).set 58 ex63

/-- The state the vectors write as a REG, WIDTH, BOUNDED, COUNT quadruple, with no response and no inputs. -/
def st (reg : RegWord) (width : WidthWord) (bounded : Bool) (count : DataWord) : State :=
  { reg := reg, width := width, bounded := bounded, count := count, rspValid := false, rspStatus := 0#3,
    rspData := 0#64, taps := exTable, inputs := [] }

/-- The outcome is a next state that passes the check. -/
def nextIs (o : Host.Outcome State Fault Refusal) (p : State → Bool) : Bool :=
  match o with
  | .next t => p t
  | .fault _ => false
  | .refused _ => false

/-- Registers and response of a state. -/
def shows (reg : RegWord) (width : WidthWord) (bounded : Bool) (count : DataWord) (status : StatusCode)
    (data : DataWord) (t : State) : Bool :=
  t.reg == reg && t.width == width && t.bounded == bounded && t.count == count &&
    t.rspValid && t.rspStatus == status && t.rspData == data

/-! ## Well-formed and ill-formed lines (R4 (i), R34, R40) -/

theorem test_widthFits_refuses_256 :
    (AsmLine.construct 256 8 false).wellFormed = false ∧ (AsmLine.period 256).wellFormed = false := by decide

theorem test_seedFits_refuses_wider_seeds :
    (AsmLine.construct 32 (2 ^ 64) false).wellFormed = false ∧
    (AsmLine.construct 32 (-(2 ^ 63) - 1) false).wellFormed = false := by decide

theorem test_wellFormed_admits_the_edges :
    (AsmLine.construct 255 (2 ^ 64 - 1) true).wellFormed = true ∧
    (AsmLine.construct 0 (-(2 ^ 63)) true).wellFormed = true ∧ (AsmLine.period 255).wellFormed = true := by decide

/-! ## Decoding: words written out from R34 and R36, RSV and unused fields set where the name says so -/

theorem test_decode_nop : decode 0x00000000000000000000#80 = .nop := by decide

theorem test_decode_construct_bounded : decode 0x000000000000000A0609#80 = .construct 6#8 10#64 true := by decide

/-- The same word laid out by R34's pattern: SEED, WID, RSV, B, OP. -/
theorem test_decode_construct_field_by_field :
    decode (10#64 ++ 0b00000110#8 ++ 0b0000#4 ++ 0b1#1 ++ 0b001#3) = .construct 6#8 10#64 true := by decide

/-- `CONSTRUCT 6, -1, 0` of spec/95_test_vectors.md. -/
theorem test_decode_construct_minus_one :
    decode 0xFFFFFFFFFFFFFFFF0601#80 = .construct 6#8 0xFFFFFFFFFFFFFFFF#64 false := by decide

/-- A word with every field different: SEED = 0x8000000000000001, WID = 0x3F, RSV = 0xF, B = 0, OP = 1 (R34, R38). -/
theorem test_decode_construct_ignores_rsv :
    decode 0x80000000000000013FF1#80 = .construct 0x3F#8 0x8000000000000001#64 false := by decide

theorem test_decode_advance : decode 0x00000000000000000002#80 = .advance := by decide

/-- The ignored-fields vector of spec/95_test_vectors.md. -/
theorem test_decode_advance_ignores_fields : decode 0x000000000000123455FA#80 = .advance := by decide

theorem test_decode_period : decode 0x00000000000000000603#80 = .period 6#8 := by decide

theorem test_decode_reserved :
    decode 0x00000000000000000004#80 = .reserved4 ∧ decode 0x00000000000000000005#80 = .reserved5 ∧
    decode 0x00000000000000000006#80 = .reserved6 ∧ decode 0x00000000000000000007#80 = .reserved7 := by decide

/-- "No other length" (R34). -/
theorem test_decodeBits_rejects_other_lengths :
    decodeBits 79 2 = .error .notEightyBits ∧ decodeBits 88 2 = .error .notEightyBits ∧
    decodeBits 80 (2 ^ 80) = .error .notEightyBits := by
  refine ⟨rfl, rfl, rfl⟩

theorem test_decodeTableWord_construct :
    decodeTableWord 80 0x000000000000000A0609 = some (.construct 6#8 10#64 true) := by decide

/-- `PERIOD 63` and `CONSTRUCT 255, 7, 0` of spec/95_test_vectors.md. -/
theorem test_encode_words :
    encode (.period 63#8) = 0x00000000000000003F03#80 ∧
    encode (.construct 255#8 7#64 false) = 0x0000000000000007FF01#80 := by decide

/-- `CONSTRUCT 6, -1, 0`. -/
theorem test_assemble_negative_seed : assemble (.construct 6 (-1) false) = 0xFFFFFFFFFFFFFFFF0601#80 := by decide

/-! ## Feedback and step: F2, F3, F4, F8, F11, F15, F16, F17 -/

theorem test_feedback_vectors :
    feedback ex6 1#63 = 1#63 ∧ feedback ex6 11#63 = 1#63 ∧ feedback ex6 63#63 = 0#63 ∧
    feedback ⟨5#6, 4#6, 3#6, 2#6⟩ 1#63 = 0#63 ∧ feedback ex63 0x4000000000000001#63 = 0#63 := by decide

theorem test_step_vectors :
    stepReg ex6 6 11#63 = 37#63 ∧ stepReg ex6 6 63#63 = 31#63 ∧ stepReg ⟨1#6, 3#6, 4#6, 6#6⟩ 6 1#63 = 0#63 ∧
    stepReg ex8 8 1#63 = 128#63 ∧ stepReg ex63 63 1#63 = 0x4000000000000000#63 ∧
    stepReg ex63 63 0x4000000000000001#63 = 0x2000000000000000#63 ∧
    stepReg ex63 63 0x7FFFFFFFFFFFFFFF#63 = 0x3FFFFFFFFFFFFFFF#63 := by decide

/-! ## The commands -/

/-- NOP in the Exhausted state (R53). -/
theorem test_nop_when_exhausted :
    nextIs (exec .nop (st 1 5 true 32)) (shows 1 5 true 32 0 0) = true := by decide

/-- The initial REG under both modes: w = 40 and w = 63 of spec/95_test_vectors.md. -/
theorem test_construct_initial_register :
    initialReg .narrow 40#8 0x123456789A#64 = 3#63 ∧ initialReg .full 40#8 0x123456789A#64 = 0x123456789B#63 ∧
    initialReg .narrow 63#8 0xFFFFFFFFFFFFFFFF#64 = 61#63 ∧
    initialReg .full 63#8 0xFFFFFFFFFFFFFFFF#64 = 0x7FFFFFFFFFFFFFFF#63 := by decide

/-- `CONSTRUCT 5, 3, 1` in the Exhausted state, and `CONSTRUCT 64, 10, 1`. -/
theorem test_construct_restarts_or_refuses :
    nextIs (exec (.construct 5#8 3#64 true) (st 1 5 true 32)) (shows 3 5 true 0 0 0) = true ∧
    nextIs (exec (.construct 64#8 10#64 true) (st 9 32 false 7)) (shows 9 32 false 7 2 0) = true := by decide

/-- The last success of a bounded generator, and the first exhausted ADVANCE. -/
theorem test_advance_to_exhaustion :
    nextIs (exec .advance (st 3 5 true 31)) (shows 1 5 true 32 0 1) = true ∧
    nextIs (exec .advance (st 1 5 true 32)) (shows 1 5 true 32 3 0) = true := by decide

/-- COUNT wraps while unbounded (R16). -/
theorem test_advance_count_wraps :
    nextIs (exec .advance (st 1 6 false 0xFFFFFFFFFFFFFFFF)) (shows 32 6 false 0 0 32) = true := by decide

theorem test_period_edges :
    nextIs (exec (.period 63#8) (st 1 5 true 32)) (shows 1 5 true 32 0 0x8000000000000000) = true ∧
    nextIs (exec (.period 64#8) (st 1 5 true 32)) (shows 1 5 true 32 4 0) = true := by decide

theorem test_period_of_zero : nextIs (exec (.period 0#8) (st 9 32 false 0)) (shows 9 32 false 0 0 1) = true := by
  decide

/-- ILLEGAL_COMMAND, not SEQUENCE_EXHAUSTED, in the Exhausted state (R61). -/
theorem test_reserved_when_exhausted :
    nextIs (exec .reserved4 (st 1 5 true 32)) (shows 1 5 true 32 5 0) = true ∧
    nextIs (exec .reserved5 (st 1 5 true 32)) (shows 1 5 true 32 5 0) = true ∧
    nextIs (exec .reserved6 (st 1 5 true 32)) (shows 1 5 true 32 5 0) = true ∧
    nextIs (exec .reserved7 (st 1 5 true 32)) (shows 1 5 true 32 5 0) = true := by decide

/-! ## The port -/

/-- A word placed after reset is what the next edge runs: `CONSTRUCT 6, 10, 1` of P1. -/
theorem test_step_runs_word_after_reset :
    nextIs (step (State.reset.withFetchWord 80 0x000000000000000A0609)) (shows 1 6 true 0 0 0) = true := by decide

/-- ADVANCE runs after reset whatever TAPS(32) is. -/
theorem test_advance_after_reset_completes :
    nextIs (step (State.reset.withFetchWord 80 2)) (fun t => t.count == 1 && t.rspStatus == 0) = true := by decide

/-- Reset beats ADVANCE at the same edge (R77). -/
theorem test_reset_edge_drops_the_command :
    nextIs (step { st 1 6 true 5 with inputs := [{ rst := true, cmdValid := true, cmd := 2#80 }] })
      (fun t => t.reg == 9 && t.width == 32 && !t.bounded && t.count == 0 && !t.rspValid && t.inputs == []) = true := by
  decide

/-! ## Witnesses: states and operands that meet the hypotheses of each statement -/

theorem witness_each_opcode_has_a_word :
    (0x000000000000123455F8#80).extractLsb' 0 3 = 0b000#3 ∧ (0x000000000000000A0609#80).extractLsb' 0 3 = 0b001#3 ∧
    (0x000000000000123455FA#80).extractLsb' 0 3 = 0b010#3 ∧ (0x00000000000000003F03#80).extractLsb' 0 3 = 0b011#3 ∧
    (4#80).extractLsb' 0 3 = 0b100#3 ∧ (5#80).extractLsb' 0 3 = 0b101#3 ∧ (6#80).extractLsb' 0 3 = 0b110#3 ∧
    (7#80).extractLsb' 0 3 = 0b111#3 := by decide

/-- The edges of each clause of ConstructValidatesThenReloadsTheGenerator (with InitialRegisterHasOnlyMaskedBits,
BoundedSequenceHasExactlyMaxPeriodElements): WID 4, 5, 63, 64, 255. -/
theorem witness_construct_clauses :
    (10#64 ≠ 0#64) ∧ ¬ (4 < (4#8).toNat ∧ (4#8).toNat < 64) ∧ ¬ (4 < (64#8).toNat ∧ (64#8).toNat < 64) ∧
    ¬ (4 < (255#8).toNat ∧ (255#8).toNat < 64) ∧ (4 < (5#8).toNat ∧ (5#8).toNat < 64) ∧
    (4 < (63#8).toNat ∧ (63#8).toNat < 64) := by decide

theorem witness_advance_exhausted_clause :
    (st 1 5 true 32).bounded = true ∧ 2 ^ (st 1 5 true 32).width.toNat ≤ (st 1 5 true 32).count.toNat := by decide

theorem witness_advance_success_clause :
    ¬ ((st 3 5 true 31).bounded = true ∧ 2 ^ (st 3 5 true 31).width.toNat ≤ (st 3 5 true 31).count.toNat) ∧
    5 ≤ (st 3 5 true 31).width.toNat ∧ 5 ≤ (st 1 63 false 0).width.toNat ∧
    ¬ ((st 1 63 false 0).bounded = true ∧ 2 ^ (st 1 63 false 0).width.toNat ≤ (st 1 63 false 0).count.toNat) := by
  decide

/-- AdvanceFaultsOnlyWithoutTableEntry: WIDTH = 4. -/
theorem witness_advance_fault_clause :
    (st 1 4 false 0).width.toNat < 5 ∧
    ¬ ((st 1 4 false 0).bounded = true ∧ 2 ^ (st 1 4 false 0).width.toNat ≤ (st 1 4 false 0).count.toNat) ∧
    exec .advance (st 1 4 false 0) = .fault .tapLookupOutsideTable := ⟨by decide, by decide, rfl⟩

/-- ExhaustedAdvanceIsIdempotent and the last clause of ExhaustedFollowsItsStateMachine. -/
theorem witness_exhausted_state :
    (st 1 5 true 32).exhausted = true ∧ (st 1 5 true 32).generatorStatus = .exhausted ∧
    exec .advance (st 1 5 true 32) = .next (raise .sequenceExhausted (st 1 5 true 32)) := ⟨by decide, by decide, rfl⟩

/-- The clauses of ExhaustedFollowsItsStateMachine about CONSTRUCT and about the transition. -/
theorem witness_active_state :
    (st 3 5 true 31).generatorStatus = .active ∧
    (∃ t, exec .advance (st 3 5 true 31) = .next t ∧ t.generatorStatus = .exhausted) ∧
    (∃ t, exec (.construct 5#8 3#64 true) (st 1 5 true 32) = .next t ∧ t.rspStatus = 0#3) :=
  ⟨by decide, ⟨_, rfl, by decide⟩, ⟨_, rfl, by decide⟩⟩

theorem witness_period_clauses : (0#8).toNat ≤ 63 ∧ (63#8).toNat ≤ 63 ∧ 64 ≤ (64#8).toNat ∧ 64 ≤ (255#8).toNat := by
  decide

/-- EachStatusHasExactlyItsCause, NotOkWritesNoArchitecturalState: every status is produced. -/
theorem witness_every_status_occurs :
    (∃ t, exec .nop (st 1 5 true 32) = .next t ∧ t.rspStatus = 0#3) ∧
    (∃ t, exec (.construct 4#8 0#64 false) (st 1 5 true 32) = .next t ∧ t.rspStatus = 1#3) ∧
    (∃ t, exec (.construct 4#8 10#64 true) (st 1 5 true 32) = .next t ∧ t.rspStatus = 2#3) ∧
    (∃ t, exec .advance (st 1 5 true 32) = .next t ∧ t.rspStatus = 3#3) ∧
    (∃ t, exec (.period 64#8) (st 1 5 true 32) = .next t ∧ t.rspStatus = 4#3) ∧
    (∃ t, exec .reserved7 (st 1 5 true 32) = .next t ∧ t.rspStatus = 5#3) :=
  ⟨⟨_, rfl, by decide⟩, ⟨_, rfl, by decide⟩, ⟨_, rfl, by decide⟩, ⟨_, rfl, by decide⟩, ⟨_, rfl, by decide⟩,
    ⟨_, rfl, by decide⟩⟩

/-- EachCommandReportsOneStatus, second clause: one command, two states, neither status OK. -/
theorem witness_one_command_two_errors :
    ∃ t t', exec .advance (st 1 5 true 32) = .next t ∧ exec .advance (st 2 6 true 64) = .next t' ∧
      t.rspStatus ≠ 0#3 ∧ t'.rspStatus ≠ 0#3 ∧ ∀ wid seed b, Instr.advance ≠ .construct wid seed b :=
  ⟨_, _, rfl, rfl, by decide, by decide, fun _ _ _ h => nomatch h⟩

/-- OnlyTheNamedCommandsWriteTheGenerator, CountCountsSuccessfulAdvances: an edge of each kind, with each branch. -/
theorem witness_edges :
    (∃ t, clockEdge (presentCommand 0#80) (st 3 5 true 31) = .next t ∧ t.rspStatus = 0#3) ∧
    (∃ t, clockEdge (presentCommand 2#80) (st 3 5 true 31) = .next t ∧ t.rspStatus = 0#3) ∧
    (∃ t, clockEdge (presentCommand 0x00000000000000030509#80) (st 3 5 true 31) = .next t ∧ t.rspStatus = 0#3) ∧
    (∃ t, clockEdge idleInput (st 3 5 true 31) = .next t) ∧
    (∃ t, clockEdge { rst := true, cmdValid := true, cmd := 2#80 } (st 3 5 true 31) = .next t) :=
  ⟨⟨_, rfl, by decide⟩, ⟨_, rfl, by decide⟩, ⟨_, rfl, by decide⟩, ⟨_, rfl⟩, ⟨_, rfl⟩⟩

/-- CountWrapsOnlyWhileUnbounded, EveryStepKeepsTheInvariants, OneResponsePerAcceptedCommand. -/
theorem witness_bounded_invariant_state :
    (st 3 5 true 31).Inv ∧ (st 1 63 true 0).Inv ∧
    ∃ t, exec .advance (st 3 5 true 31) = .next t ∧ t.bounded = true :=
  ⟨⟨by decide, by decide, by decide⟩, ⟨by decide, by decide, by decide⟩, ⟨_, rfl, rfl⟩⟩

theorem witness_unbounded_full_count :
    5 ≤ (st 1 6 false 0xFFFFFFFFFFFFFFFF).width.toNat ∧ (st 1 6 false 0xFFFFFFFFFFFFFFFF).bounded = false ∧
    (st 1 6 false 0xFFFFFFFFFFFFFFFF).count.toNat = 2 ^ 64 - 1 := by decide

/-- TapLookupCoversTheSupportedWidths: WIDTH = 4, 5, 63. -/
theorem witness_lookup_edges :
    tapLookup exTable 4#6 = none ∧ tapLookup exTable 5#6 = some ex5 ∧ tapLookup exTable 63#6 = some ex63 := by decide

/-- ResetTapTableIsAdmissible, second clause. -/
theorem witness_admissible_entry : ex6.admissible 6 = true ∧ ex63.admissible 63 = true := by decide

/-- FeedbackIsTheXorOfFourTappedBits, StepShiftsRightAndInsertsTheFeedbackBit, StepStaysWithinTheWidth. -/
theorem witness_step_operands : (31#63).toNat < 2 ^ 5 ∧ (0x7FFFFFFFFFFFFFFF#63).toNat < 2 ^ 63 := by decide

theorem witness_zero_register :
    (st 0 6 false 5).reg = 0#63 ∧ 5 ≤ (st 0 6 false 5).width.toNat ∧ (st 0 6 false 5).exhausted = false := by decide

/-- WithoutTapZeroNoMaximalLength: the taps of F8. -/
theorem witness_taps_without_zero :
    (5#6 ≠ 0#6) ∧ (4#6 ≠ 0#6) ∧ (3#6 ≠ 0#6) ∧ (2#6 ≠ 0#6) := by decide

theorem stepIter_add (t : Taps) (w j k : Nat) (a : RegWord) :
    stepIter t w (j + k) a = stepIter t w k (stepIter t w j a) := by
  induction j generalizing a with
  | zero => rw [Nat.zero_add]; rfl
  | succ n ih => rw [Nat.succ_add]; exact ih (stepReg t w a)

/-- Every nonzero 5-bit state is met from 1 within 31 steps, and the 31st returns to 1 (enumerated). -/
theorem ex5_orbit :
    (∀ n : Fin 32, n ≠ 0 → ∃ j : Fin 31, stepIter ex5 5 j.val 1#63 = BitVec.ofNat 63 n.val) ∧
    stepIter ex5 5 31 1#63 = 1#63 := by decide

/-- MAXLEN holds of TAPS_EX(5): the hypothesis of every statement under MAXLEN can be met. -/
theorem witness_maxLen : MaxLen ex5 5 := by
  have met : ∀ a : RegWord, a ≠ 0#63 → a.toNat < 2 ^ 5 → ∃ j < 31, stepIter ex5 5 j 1#63 = a := by
    intro a ha hl
    have hn : (⟨a.toNat, hl⟩ : Fin 32) ≠ 0 := fun h =>
      ha (BitVec.eq_of_toNat_eq (by simpa using congrArg Fin.val h))
    obtain ⟨j, hj⟩ := ex5_orbit.1 ⟨a.toNat, hl⟩ hn
    exact ⟨j.val, j.isLt, hj.trans (by simp)⟩
  intro a x ha hal hx hxl
  obtain ⟨j, hj, rfl⟩ := met a ha hal
  obtain ⟨m, hm, rfl⟩ := met x hx hxl
  by_cases h : j ≤ m
  · refine ⟨m - j, by omega, ?_⟩
    rw [← stepIter_add]
    congr 1
    omega
  · refine ⟨31 + m - j, by omega, ?_⟩
    rw [← stepIter_add, show j + (31 + m - j) = 31 + m by omega, stepIter_add, ex5_orbit.2]

/-- The other hypotheses of MaxLenStepPermutesNonzeroStates and MaxLenGivesOneCycleOfNonzeroStates. -/
theorem witness_maxLen_start : MaxLen ex5 5 ∧ 3#63 ≠ 0#63 ∧ (3#63).toNat < 2 ^ 5 := ⟨witness_maxLen, by decide⟩

/-- ConstructStartsAtAnOddRegister, under either mode. -/
theorem witness_construct_succeeds :
    (constructWith .narrow 6#8 10#64 true (st 9 32 false 0)).rspStatus = 0#3 ∧
    (constructWith .full 6#8 10#64 true (st 9 32 false 0)).rspStatus = 0#3 := by decide

/-- ResetBeatsACommandAtTheSameEdge, StepRunsThePresentedCommand, EdgeWithoutCommandClearsTheResponse,
PresentedCommandsTakeEffectInOrder: lists of inputs of each form. -/
theorem witness_inputs :
    ({ st 1 6 true 0 with inputs := [{ rst := true, cmdValid := true, cmd := 2#80 }] } : State).inputs =
      { rst := true, cmdValid := true, cmd := 2#80 } :: [] ∧
    ({ st 1 6 true 0 with inputs := [{ rst := false, cmdValid := true, cmd := 2#80 }] } : State).inputs =
      { rst := false, cmdValid := true, cmd := 2#80 } :: [] ∧
    ({ st 1 6 true 0 with inputs := [{ rst := false, cmdValid := false, cmd := 2#80 }] } : State).inputs =
      { rst := false, cmdValid := false, cmd := 2#80 } :: [] ∧
    (st 1 6 true 0).inputs = [] ∧
    ({ st 1 6 true 0 with inputs := [presentCommand 2#80, presentCommand 0#80] } : State).inputs =
      [2#80, 0#80].map (fun c => { rst := false, cmdValid := true, cmd := c }) := by decide

/-- TapTableIsImmutable, EveryEdgeLeavesAWellFormedResponse. -/
theorem witness_step_next : ∃ t, step { st 1 6 true 0 with inputs := [presentCommand 2#80] } = .next t := ⟨_, rfl⟩

/-- UnusedFieldsAreIgnored: two different words of each kind. -/
theorem witness_words_that_agree :
    (0x000000000000123455FA#80).extractLsb' 0 3 = (2#80).extractLsb' 0 3 ∧
    (0x000000000000000A06F9#80).extractLsb' 0 3 = (0x000000000000000A0609#80).extractLsb' 0 3 ∧
    (0x000000000000000A06F9#80).getLsbD 3 = (0x000000000000000A0609#80).getLsbD 3 ∧
    (0x000000000000000A06F9#80).extractLsb' 8 8 = (0x000000000000000A0609#80).extractLsb' 8 8 ∧
    (0x000000000000000A06F9#80).extractLsb' 16 64 = (0x000000000000000A0609#80).extractLsb' 16 64 ∧
    (0x000000000000000A06FB#80).extractLsb' 0 3 = (0x00000000000000000603#80).extractLsb' 0 3 ∧
    (0x000000000000000A06FB#80).extractLsb' 8 8 = (0x00000000000000000603#80).extractLsb' 8 8 := by decide

/-- EncodeOfDecodeIsTheCanonicalWord: a word for each clause. -/
theorem witness_canonical_words :
    (0x000000000000000A0609#80).extractLsb' 4 4 = 0#4 ∧ (0x00000000000000003F03#80).extractLsb' 4 4 = 0#4 ∧
    (0x00000000000000003F03#80).getLsbD 3 = false ∧ (0x00000000000000003F03#80).extractLsb' 16 64 = 0#64 ∧
    (7#80).extractLsb' 4 4 = 0#4 ∧ (7#80).extractLsb' 0 3 ≠ 0b001#3 ∧ (7#80).extractLsb' 0 3 ≠ 0b011#3 ∧
    (7#80).getLsbD 3 = false ∧ (7#80).extractLsb' 8 8 = 0#8 ∧ (7#80).extractLsb' 16 64 = 0#64 := by decide

/-- UnboundedSequenceNeverEnds. -/
theorem witness_unbounded_state : 5 ≤ (st 9 32 false 0).width.toNat ∧ (st 9 32 false 0).bounded = false := by decide

/-- ConstructReplaysTheSameSequence: two states that differ in every register. -/
theorem witness_same_surroundings : sameSurroundings (st 9 32 false 0) (st 1 5 true 32) := ⟨rfl, rfl⟩

/-- AdvanceReturnsValuesInRange, all hypotheses together: CONSTRUCT 5, 3, 1 (P3), a NOP and a failed
CONSTRUCT, then ADVANCE. -/
theorem witness_range_hypotheses :
    ∃ c u v, exec (.construct 5#8 3#64 true) (st 9 32 false 0) = .next c ∧ c.rspStatus = 0#3 ∧
      (∀ i ∈ [Instr.nop, .construct 6#8 0#64 true], i.validConstruct = false) ∧
      execAll [.nop, .construct 6#8 0#64 true] c = .next u ∧
      exec .advance u = .next v ∧ v.rspStatus = 0#3 ∧ tapLookup c.taps c.width = some ex5 ∧ MaxLen ex5 (5#8).toNat :=
  ⟨_, _, _, rfl, by decide, by decide, rfl, rfl, by decide, by decide, witness_maxLen⟩

/-- CoresShareNoMutableState, TapContentsStayCommonToAllCores: two cores over the common table. -/
theorem witness_two_cores :
    ({ taps := exTable, slots := [.running (st 9 32 false 0), .running (st 1 6 true 0)] } : Cores).TapsCommon := by
  intro s h
  simp only [List.mem_cons, CoreSlot.running.injEq, List.not_mem_nil, or_false] at h
  rcases h with rfl | rfl <;> rfl

/-- A core that stops stops no other (R33): core 0 faults at WIDTH = 4, core 1 then runs its ADVANCE. -/
theorem test_one_core_stops_alone :
    (stepCore 1 (stepCore 0
      { taps := exTable
        slots := [.running { st 1 4 false 0 with inputs := [presentCommand 2#80] },
          .running { st 1 6 true 0 with inputs := [presentCommand 2#80] }] })).slots =
      [.faulted .tapLookupOutsideTable,
        .running { st 32 6 true 1 with rspValid := true, rspData := 32#64 }] := by decide

/-- The last clauses of ExhaustedFollowsItsStateMachine: an exhausted state with the invariants, and an edge of each
kind from it. -/
theorem witness_exhausted_edges :
    (st 1 5 true 32).Inv ∧ (st 1 5 true 32).generatorStatus = .exhausted ∧
    (∃ t, clockEdge idleInput (st 1 5 true 32) = .next t) ∧
    (∃ t, clockEdge (presentCommand 0x00000000000000000401#80) (st 1 5 true 32) = .next t ∧ t.rspStatus ≠ 0#3) ∧
    (∃ t, clockEdge { rst := true, cmdValid := false, cmd := 0#80 } (st 1 5 true 32) = .next t) :=
  ⟨⟨by decide, by decide, by decide⟩, by decide, ⟨_, rfl⟩, ⟨_, rfl, by decide⟩, ⟨_, rfl⟩⟩

/-- OtherCommandsDoNotDisturbTheBoundedSequence: commands that are no successful CONSTRUCT, failed ones among them. -/
theorem witness_commands_between :
    ∀ i ∈ [Instr.advance, .nop, .construct 4#8 10#64 true, .construct 6#8 0#64 true, .period 6#8, .reserved4, .advance],
      i.validConstruct = false := by decide

/-- BoundedValuesUnderMaxLen: CONSTRUCT 5, 3, 1 of P3. -/
theorem witness_bounded_maxLen :
    ∃ c, exec (.construct 5#8 3#64 true) (st 9 32 false 0) = .next c ∧ tapLookup c.taps c.width = some ex5 ∧
      MaxLen ex5 (5#8).toNat := ⟨_, rfl, by decide, witness_maxLen⟩

/-- StepKeepsAMaximalGeneratorWhileWidthStays, with ADVANCE presented. -/
theorem witness_maxLenInv : ({ st 3 5 true 31 with inputs := [presentCommand 2#80] } : State).MaxLenInv :=
  ⟨⟨by decide, by decide, by decide⟩, by decide, ex5, by decide, witness_maxLen⟩

end Sys2Proof.Tests
end

section
/-! SUPPORT. What the statements about the state (spec/10_state.md) rest on: the opcode of a decoded word, when a
CONSTRUCT succeeds, and the values derived from WIDTH, BOUNDED and COUNT. -/

namespace Sys2Proof

/-- The three bits of OP, read as `decode` reads them, give OP back. -/
theorem ofBoolListBE_bits_op (op : BitVec 3) :
    BitVec.ofBoolListBE [op.getLsbD 2, op.getLsbD 1, op.getLsbD 0] = op := by
  revert op
  decide

/-- A word's command has the word's OP as its opcode (R34, R36). -/
theorem opcode_decode (c : CmdWord) : (decode c).opcode = c.extractLsb' 0 3 := by
  refine Eq.trans ?_ (ofBoolListBE_bits_op (fieldOp c))
  unfold decode
  split <;> rename_i h2 h1 h0 <;> rw [h2, h1, h0] <;> rfl

theorem Instr.opcode_eq_construct_iff (i : Instr) :
    i.opcode = 0b001#3 ↔ ∃ wid seed b, i = .construct wid seed b := by
  cases i <;> simp [Instr.opcode]

theorem Instr.opcode_eq_advance_iff (i : Instr) : i.opcode = 0b010#3 ↔ i = .advance := by
  cases i <;> simp [Instr.opcode]

theorem Instr.opcode_of_validConstruct {i : Instr} (h : i.validConstruct = true) : i.opcode = 0b001#3 := by
  cases i with
  | construct wid seed b => rfl
  | _ => cases h

end Sys2Proof

namespace Sys2Proof.Machine

/-! ### When CONSTRUCT succeeds -/

/-- A CONSTRUCT whose checks pass reloads the generator with COUNT = 0 and answers OK (R54). -/
theorem exec_of_validConstruct {i : Instr} (h : i.validConstruct = true) (s : State) :
    ∃ r w b, exec i s = .next (respond .ok 0#64 (writeConfiguration r w b s)) := by
  obtain ⟨wid, seed, b, rfl⟩ := (Instr.opcode_eq_construct_iff i).1 (Instr.opcode_of_validConstruct h)
  have hv : seed ≠ 0#64 ∧ 4 < wid.toNat ∧ wid.toNat < 64 := of_decide_eq_true h
  rcases constructWith_cases Config.seedMaskMode wid seed b s with ⟨hs, -⟩ | ⟨-, hw, -⟩ | ⟨-, -, e⟩
  · exact absurd hs hv.1
  · exact absurd hv.2 hw
  · exact ⟨_, _, _, congrArg Host.Outcome.next e⟩

/-- The status tells whether a CONSTRUCT's checks passed. -/
theorem validConstruct_iff_of_exec {i : Instr} {s t : State} (h : exec i s = .next t) :
    i.validConstruct = true ↔ t.rspStatus = 0#3 ∧ i.opcode = 0b001#3 := by
  constructor
  · intro hv
    obtain ⟨r, w, b, e⟩ := exec_of_validConstruct hv s
    obtain rfl := Host.Outcome.next.inj (e.symm.trans h)
    exact ⟨rfl, Instr.opcode_of_validConstruct hv⟩
  · rintro ⟨hok, hop⟩
    obtain ⟨wid, seed, b, rfl⟩ := (Instr.opcode_eq_construct_iff i).1 hop
    obtain rfl := Host.Outcome.next.inj h
    rcases constructWith_cases Config.seedMaskMode wid seed b s with ⟨-, e⟩ | ⟨-, -, e⟩ | ⟨hs, hw, -⟩
    · simp [e, Status.code] at hok
    · simp [e, Status.code] at hok
    · exact decide_eq_true ⟨hs, hw⟩

/-! ### COUNT -/

/-- What COUNT is after any command (R15). -/
theorem exec_count {i : Instr} {s t : State} (h : exec i s = .next t) :
    t.count =
      if t.rspStatus = 0#3 ∧ i.opcode = 0b001#3 then 0#64
      else if t.rspStatus = 0#3 ∧ i.opcode = 0b010#3 then s.count + 1#64
      else s.count := by
  cases hv : i.validConstruct with
  | true =>
    rw [if_pos ((validConstruct_iff_of_exec h).1 hv)]
    obtain ⟨r, w, b, e⟩ := exec_of_validConstruct hv s
    obtain rfl := Host.Outcome.next.inj (e.symm.trans h)
    rfl
  | false =>
    rw [if_neg fun hc => Bool.false_ne_true (hv.symm.trans ((validConstruct_iff_of_exec h).2 hc))]
    rcases exec_cases_of_not_validConstruct hv s with ⟨c, d, e, hadv⟩ | ⟨rfl, -, -, taps, -, e⟩ | ⟨-, -, e⟩
    · obtain rfl := Host.Outcome.next.inj (e.symm.trans h)
      refine (if_neg ?_).symm
      rintro ⟨hok, hop⟩
      obtain ⟨-, rfl, -⟩ := hadv ((Instr.opcode_eq_advance_iff i).1 hop)
      simp [Status.code] at hok
    · obtain rfl := Host.Outcome.next.inj (e.symm.trans h)
      exact (if_pos ⟨rfl, rfl⟩).symm
    · cases e.symm.trans h

/-! ### MAXP and EXHAUSTED -/

theorem two_pow_width_le (w : WidthWord) : 2 ^ w.toNat ≤ 2 ^ 63 :=
  Nat.pow_le_pow_right (by decide) (by have := w.isLt; omega)

theorem maxp_toNat (s : State) : s.maxp.toNat = 2 ^ s.width.toNat := powerOfTwo_toNat s.width.isLt

theorem generatorStatus_eq_exhausted_iff (s : State) : s.generatorStatus = .exhausted ↔ s.exhausted = true := by
  cases h : s.exhausted <;> simp [State.generatorStatus, h]

theorem generatorStatus_eq_active_iff (s : State) : s.generatorStatus = .active ↔ s.exhausted = false := by
  cases h : s.exhausted <;> simp [State.generatorStatus, h]

/-- A generator with COUNT = 0 is Active, since 2^WIDTH is at least 1. -/
theorem generatorStatus_of_count_zero {s : State} (h : s.count = 0#64) : s.generatorStatus = .active := by
  rw [generatorStatus_eq_active_iff, Bool.eq_false_iff, ne_eq, exhausted_iff, h]
  rintro ⟨-, hle⟩
  exact absurd hle (Nat.not_le.2 (Nat.two_pow_pos s.width.toNat))

/-- EXHAUSTED is read from WIDTH, BOUNDED and COUNT alone (R18). -/
theorem generatorStatus_congr {s t : State} (h : sameArchitecture s t) : t.generatorStatus = s.generatorStatus := by
  obtain ⟨-, hw, hb, hc⟩ := h
  unfold State.generatorStatus State.exhausted State.maxp
  rw [hw, hb, hc]

/-- While a bounded generator is not exhausted, COUNT + 1 is at most MAXP and does not wrap (R16, R18). -/
theorem count_succ_of_not_exhausted {s : State} (hx : s.exhausted = false) (hb : s.bounded = true) :
    (s.count + 1#64).toNat = s.count.toNat + 1 ∧ s.count.toNat + 1 ≤ 2 ^ s.width.toNat := by
  have hlt : s.count.toNat < 2 ^ s.width.toNat := by
    by_contra hle
    exact Bool.false_ne_true (hx.symm.trans ((exhausted_iff s).2 ⟨hb, Nat.not_lt.1 hle⟩))
  have hmax := two_pow_width_le s.width
  refine ⟨?_, hlt⟩
  rw [BitVec.toNat_add]
  exact Nat.mod_eq_of_lt (show s.count.toNat + 1 < 2 ^ 64 by omega)

/-- R19's bound on COUNT is kept by every command. -/
theorem exec_keeps_count_bound {i : Instr} {s t : State}
    (hs : s.bounded = true → s.count.toNat ≤ 2 ^ s.width.toNat) (h : exec i s = .next t) (hb : t.bounded = true) :
    t.count.toNat ≤ 2 ^ t.width.toNat := by
  cases hv : i.validConstruct with
  | true =>
    obtain ⟨r, w, b, e⟩ := exec_of_validConstruct hv s
    obtain rfl := Host.Outcome.next.inj (e.symm.trans h)
    exact Nat.zero_le _
  | false =>
    rcases exec_cases_of_not_validConstruct hv s with ⟨c, d, e, -⟩ | ⟨-, hx, -, taps, -, e⟩ | ⟨-, -, e⟩
    · obtain rfl := Host.Outcome.next.inj (e.symm.trans h)
      exact hs hb
    · obtain rfl := Host.Outcome.next.inj (e.symm.trans h)
      obtain ⟨hsucc, hle⟩ := count_succ_of_not_exhausted hx hb
      exact hsucc.le.trans hle
    · cases e.symm.trans h

/-- From Active, ADVANCE leads to Exhausted exactly when the count after the increment is MAXP (R18). -/
theorem exec_advance_exhausts_iff {s t : State} (hs : s.exhausted = false) (h : exec .advance s = .next t) :
    t.exhausted = true ↔ s.bounded = true ∧ s.count.toNat + 1 = 2 ^ s.width.toNat := by
  rcases execAdvance_cases s with ⟨hx, -⟩ | ⟨-, -, e⟩ | ⟨-, -, taps, -, e⟩
  · cases hs.symm.trans hx
  · cases e.symm.trans h
  · obtain rfl := Host.Outcome.next.inj (e.symm.trans h)
    rw [exhausted_iff]
    refine and_congr_right fun hb => ?_
    obtain ⟨hsucc, hle⟩ := count_succ_of_not_exhausted hs hb
    simp only [respond_count, respond_width, writeAdvance_count, writeAdvance_width, hsucc]
    exact ⟨hle.antisymm, Eq.ge⟩

/-- In the Exhausted state every command but a successful CONSTRUCT writes the response alone (R18, R58). -/
theorem exec_keeps_exhausted_generator {i : Instr} {s t : State} (hs : s.exhausted = true)
    (hv : i.validConstruct = false) (h : exec i s = .next t) : sameArchitecture s t := by
  rcases exec_cases_of_not_validConstruct hv s with ⟨c, d, e, -⟩ | ⟨-, hx, -⟩ | ⟨-, -, e⟩
  · obtain rfl := Host.Outcome.next.inj (e.symm.trans h)
    exact (respond_spec c d s).1
  · cases hs.symm.trans hx
  · cases e.symm.trans h

/-- The same at an edge that is neither a reset nor a successful CONSTRUCT: an idle edge writes no register either. -/
theorem clockEdge_keeps_exhausted_generator {e : PortInput} {s t : State} (hs : s.exhausted = true)
    (h : clockEdge e s = .next t) (hr : e.rst = false)
    (hn : ¬ (e.cmdValid = true ∧ t.rspStatus = 0#3 ∧ e.cmd.extractLsb' 0 3 = 0b001#3)) : sameArchitecture s t := by
  rcases clockEdge_cases e s with ⟨hr', -⟩ | ⟨-, hc, he⟩ | ⟨-, -, he⟩
  · cases hr.symm.trans hr'
  · have hx : exec (decode e.cmd) s = .next t := he.symm.trans h
    refine exec_keeps_exhausted_generator hs (Bool.eq_false_iff.2 fun hv => hn ⟨hc, ?_⟩) hx
    rw [← opcode_decode]
    exact (validConstruct_iff_of_exec hx).1 hv
  · obtain rfl := Host.Outcome.next.inj (he.symm.trans h)
    exact ⟨rfl, rfl, rfl, rfl⟩

theorem clockEdge_of_rst {e : PortInput} (hr : e.rst = true) (s : State) : clockEdge e s = .next (loadReset s) :=
  if_pos hr

end Sys2Proof.Machine
end

section
/-! The statements about the state: COUNT, MAXP, EXHAUSTED and the outputs. -/

namespace Sys2Proof.Machine

/-- Settles O13: an edge is a reset, a command, whose COUNT `exec_count` gives, or an idle edge. -/
theorem countCountsSuccessfulAdvances : Obligations.CountCountsSuccessfulAdvances := by
  refine ⟨rfl, fun e s t h => ?_⟩
  rcases clockEdge_cases e s with ⟨hr, he⟩ | ⟨hr, hc, he⟩ | ⟨hr, hc, he⟩
  · obtain rfl := Host.Outcome.next.inj (he.symm.trans h)
    simp [hr]
  · rw [exec_count (he.symm.trans h), opcode_decode]
    simp only [hr, hc, true_and, Bool.false_eq_true, if_false, apply_ite BitVec.toNat, BitVec.toNat_add,
      BitVec.toNat_ofNat, Nat.zero_mod, Nat.add_mod_mod]
  · obtain rfl := Host.Outcome.next.inj (he.symm.trans h)
    simp [hr, hc]

/-- Settles O14: every command keeps R19's bound, and an unbounded ADVANCE is never exhausted, so it counts on. -/
theorem countWrapsOnlyWhileUnbounded : Obligations.CountWrapsOnlyWhileUnbounded := by
  refine ⟨fun i s t hs h hb => ?_, fun s hw hb hc => ?_⟩
  · have hle := exec_keeps_count_bound hs.count_bounded h hb
    exact ⟨hle, hle.trans (two_pow_width_le t.width)⟩
  · rcases execAdvance_cases s with ⟨hx, -⟩ | ⟨-, hlt, -⟩ | ⟨-, -, taps, -, e⟩
    · cases hb.symm.trans ((exhausted_iff s).1 hx).1
    · exact absurd hw (Nat.not_le.2 hlt)
    · refine ⟨_, e, rfl, BitVec.eq_of_toNat_eq ?_⟩
      simp [hc]

/-- Settles O16: the derived values by their equivalences, the transitions by what each command and edge does to
COUNT. -/
theorem exhaustedFollowsItsStateMachine : Obligations.ExhaustedFollowsItsStateMachine := by
  refine ⟨exhausted_iff, fun s => ⟨generatorStatus_eq_exhausted_iff s, generatorStatus_eq_active_iff s⟩,
    generatorStatus_of_count_zero rfl, ?construct, ?advance, ?countIsMaxp, ?edge⟩
  case construct =>
    intro wid seed b s t h hok
    refine generatorStatus_of_count_zero ?_
    rw [exec_count h, if_pos ⟨hok, rfl⟩]
  case advance =>
    intro s t hs h
    rw [generatorStatus_eq_exhausted_iff]
    exact exec_advance_exhausts_iff ((generatorStatus_eq_active_iff s).1 hs) h
  case countIsMaxp =>
    intro s hinv hs
    obtain ⟨hb, hge⟩ := (exhausted_iff s).1 ((generatorStatus_eq_exhausted_iff s).1 hs)
    exact (hinv.count_bounded hb).antisymm hge
  case edge =>
    intro e s t hs h
    refine ⟨fun hr hn => ?_, fun hr => ?_⟩
    · have hsame := clockEdge_keeps_exhausted_generator ((generatorStatus_eq_exhausted_iff s).1 hs) h hr hn
      exact ⟨hsame, (generatorStatus_congr hsame).trans hs⟩
    · obtain rfl := Host.Outcome.next.inj ((clockEdge_of_rst hr s).symm.trans h)
      exact generatorStatus_of_count_zero rfl

/-- Settles O15: the shift does not leave the 64-bit word, because WIDTH is at most 63. -/
theorem maxPeriodIsExact : Obligations.MaxPeriodIsExact :=
  ⟨fun s => ⟨maxp_toNat s, (maxp_toNat s).le.trans (two_pow_width_le s.width)⟩, maxp_toNat State.reset⟩

/-- Settles O17: each output is its register, and obs_exhausted is EXHAUSTED. -/
theorem outputsShowTheCurrentState : Obligations.OutputsShowTheCurrentState :=
  fun s => ⟨rfl, rfl, rfl, rfl, exhausted_iff s⟩

end Sys2Proof.Machine
end

section
/-! SUPPORT. What the statements about the encoding (spec/30_encoding.md) rest on: which commands OP alone determines,
and where the decoder takes PERIOD's operand from. -/

namespace Sys2Proof

/-- A command other than CONSTRUCT and PERIOD has no operand: its opcode with every other field 0 decodes to it
(R36). -/
theorem decode_packFields_opcode {i : Instr} (hconstruct : i.opcode ≠ 0b001#3) (hperiod : i.opcode ≠ 0b011#3) :
    decode (packFields i.opcode false 0#8 0#64) = i := by
  cases i with
  | nop => decide
  | construct wid seed b => exact absurd rfl hconstruct
  | advance => decide
  | period wid => exact absurd rfl hperiod
  | reserved4 => decide
  | reserved5 => decide
  | reserved6 => decide
  | reserved7 => decide

/-- So OP alone determines it. -/
theorem Instr.eq_of_opcode_eq {i j : Instr} (h : i.opcode = j.opcode) (hconstruct : i.opcode ≠ 0b001#3)
    (hperiod : i.opcode ≠ 0b011#3) : i = j := by
  rw [← decode_packFields_opcode hconstruct hperiod, h]
  exact decode_packFields_opcode (h ▸ hconstruct) (h ▸ hperiod)

/-- PERIOD reads WID and no other operand field (R35, R36). -/
theorem decode_of_op_period {c : CmdWord} (h : fieldOp c = 0b011#3) : decode c = .period (fieldWid c) := by
  rw [decode, h]
  rfl

end Sys2Proof
end

section
/-! The statements about the encoding: ignored fields, the spec's examples and the pseudo-commands. -/

namespace Sys2Proof.Machine

/-- Settles O39: CONSTRUCT uses every operand field, PERIOD only WID, and OP alone determines any other command. -/
theorem unusedFieldsAreIgnored : Obligations.UnusedFieldsAreIgnored := by
  intro c d hop hconstruct hperiod
  by_cases hc : fieldOp c = 0b001#3
  · obtain ⟨hb, hwid, hseed⟩ := hconstruct hc
    exact decode_congr hop hb hwid hseed
  · by_cases hp : fieldOp c = 0b011#3
    · have hwid : fieldWid c = fieldWid d := hperiod hp
      rw [decode_of_op_period hp, decode_of_op_period (hop.symm.trans hp), hwid]
    · have hopcode : (decode c).opcode = (decode d).opcode := by rw [opcode_decode, opcode_decode, hop]
      exact Instr.eq_of_opcode_eq hopcode (by rwa [opcode_decode]) (by rwa [opcode_decode])

/-- Settles O41: each example is a closed word, assembled and decoded by evaluation. -/
theorem encodedExamplesDecode : Obligations.EncodedExamplesDecode :=
  ⟨⟨by decide, by decide⟩, ⟨by decide, by decide⟩, ⟨by decide, by decide⟩, ⟨by decide, by decide⟩,
    ⟨by decide, by decide⟩⟩

/-- Settles O43: the lines assemble to one word, and NEXT's word is ADVANCE's bare opcode. -/
theorem pseudoCommandsExpand : Obligations.PseudoCommandsExpand := by
  refine ⟨rfl, rfl, by decide, fun s => congrArg (exec · s) ?_⟩
  exact decode_packFields_opcode (i := .advance) (by decide) (by decide)

end Sys2Proof.Machine
end

section
/-! SUPPORT. The feedback combiner and the step, bit by bit (spec/40_tap_table_and_step.md R47, R48). -/

namespace Sys2Proof.Machine

/-- A value below 2^w reads 0 at bit w and above (R12). -/
theorem getLsbD_of_toNat_lt_two_pow {s : RegWord} {w i : Nat} (hs : s.toNat < 2 ^ w) (hi : w ≤ i) :
    s.getLsbD i = false :=
  Nat.testBit_lt_two_pow (hs.trans_le (Nat.pow_le_pow_right Nat.two_pos hi))

/-! ### The feedback bit -/

theorem tappedBit_eq_setWidth_ofBool (s : RegWord) (t : BitVec 6) :
    tappedBit s t = (BitVec.ofBool (s.getLsbD t.toNat)).setWidth 63 := by
  rw [tappedBit, BitVec.and_one_eq_setWidth_ofBool_getLsbD, BitVec.getLsbD_ushiftRight, Nat.add_zero]

/-- XOR-linearity of one tapped bit: the shift and the mask both distribute over XOR. -/
theorem tappedBit_xor (a b : RegWord) (t : BitVec 6) : tappedBit (a ^^^ b) t = tappedBit a t ^^^ tappedBit b t := by
  simp only [tappedBit_eq_setWidth_ofBool, BitVec.getLsbD_xor, ← BitVec.ofBool_xor_ofBool, BitVec.setWidth_xor]

/-- A tap t = w contributes nothing, since the value is below 2^w (R44). -/
theorem tappedBit_of_toNat_lt_two_pow {s : RegWord} {t : BitVec 6} (hs : s.toNat < 2 ^ t.toNat) :
    tappedBit s t = 0#63 := by
  rw [tappedBit_eq_setWidth_ofBool, getLsbD_of_toNat_lt_two_pow hs le_rfl]
  rfl

theorem feedback_eq_setWidth_ofBool (t : Taps) (s : RegWord) :
    feedback t s = (BitVec.ofBool (s.getLsbD t.t0.toNat ^^ s.getLsbD t.t1.toNat ^^ s.getLsbD t.t2.toNat ^^
      s.getLsbD t.t3.toNat)).setWidth 63 := by
  simp only [feedback, tappedBit_eq_setWidth_ofBool, ← BitVec.setWidth_xor, BitVec.ofBool_xor_ofBool]

@[simp] theorem feedback_zero (t : Taps) : feedback t 0#63 = 0#63 := by
  simp [feedback_eq_setWidth_ofBool]

theorem feedback_xor (t : Taps) (a b : RegWord) : feedback t (a ^^^ b) = feedback t a ^^^ feedback t b := by
  simp only [feedback, tappedBit_xor]
  ac_rfl

/-- The feedback is a single bit: it stands at bit 0. -/
theorem getLsbD_feedback_of_ne_zero (t : Taps) (s : RegWord) {i : Nat} (hi : i ≠ 0) :
    (feedback t s).getLsbD i = false := by
  rw [feedback_eq_setWidth_ofBool, BitVec.getLsbD_setWidth, BitVec.getLsbD_of_ge _ i (Nat.one_le_iff_ne_zero.2 hi),
    Bool.and_false]

/-! ### The step -/

/-- `newbit << (w - 1)` occupies bit w - 1 and no other. -/
theorem getLsbD_feedback_shiftLeft (t : Taps) (s : RegWord) {w : Nat} (hw : 1 ≤ w) (hw' : w ≤ 63) (i : Nat) :
    (feedback t s <<< (w - 1)).getLsbD i = if i + 1 = w then (feedback t s).getLsbD 0 else false := by
  rw [BitVec.getLsbD_shiftLeft]
  split
  case isTrue hi =>
    obtain rfl : w - 1 = i := by omega
    have hlt : w - 1 < 63 := by omega
    simp [hlt]
  case isFalse hi =>
    by_cases hlt : i < w - 1
    · simp [hlt]
    · rw [getLsbD_feedback_of_ne_zero t s (by omega), Bool.and_false]

/-- The bits of the step of a value below 2^w (R48): `s >> 1` leaves bit w - 1 free for the feedback bit. -/
theorem getLsbD_stepReg (t : Taps) {w : Nat} {s : RegWord} (hw : 1 ≤ w) (hw' : w ≤ 63) (hs : s.toNat < 2 ^ w)
    (i : Nat) :
    (stepReg t w s).getLsbD i = if i + 1 = w then (feedback t s).getLsbD 0 else s.getLsbD (i + 1) := by
  rw [stepReg, BitVec.getLsbD_or, BitVec.getLsbD_ushiftRight, getLsbD_feedback_shiftLeft t s hw hw', Nat.add_comm 1 i]
  split
  case isTrue hi => rw [getLsbD_of_toNat_lt_two_pow hs hi.ge, Bool.false_or]
  case isFalse hi => exact Bool.or_false _

/-- The step keeps a value below 2^w below 2^w (R49): its bits at w and above are those of `s >> 1`. -/
theorem stepReg_toNat_lt_two_pow (t : Taps) {w : Nat} {s : RegWord} (hw : 1 ≤ w) (hw' : w ≤ 63)
    (hs : s.toNat < 2 ^ w) : (stepReg t w s).toNat < 2 ^ w := by
  refine Nat.lt_pow_two_of_testBit _ fun i (hi : w ≤ i) => ?_
  have hbit := getLsbD_stepReg t hw hw' hs i
  rw [if_neg (by omega), getLsbD_of_toNat_lt_two_pow hs (by omega)] at hbit
  exact hbit

end Sys2Proof.Machine
end

section
/-! The statements about the feedback combiner and the step. -/

namespace Sys2Proof.Machine

/-- Settles O20: each tapped bit is a bit of the register at bit 0, so the laws of XOR on bits give the laws of the
feedback. -/
theorem feedbackIsTheXorOfFourTappedBits : Obligations.FeedbackIsTheXorOfFourTappedBits :=
  ⟨feedback_eq_setWidth_ofBool, feedback_zero, fun _ _ => tappedBit_of_toNat_lt_two_pow, feedback_xor⟩

/-- Settles O21: the width 5..63 is within what the bits of the step need. -/
theorem stepShiftsRightAndInsertsTheFeedbackBit : Obligations.StepShiftsRightAndInsertsTheFeedbackBit :=
  fun t _ _ hw hw' hs => getLsbD_stepReg t (le_trans (by decide) hw) hw' hs

/-- Settles O22: from the bits of the step. -/
theorem stepStaysWithinTheWidth : Obligations.StepStaysWithinTheWidth :=
  fun t _ _ hw hw' hs => stepReg_toNat_lt_two_pow t (le_trans (by decide) hw) hw' hs

end Sys2Proof.Machine
end

section
/-! SUPPORT. What the statements about the commands (spec/41_commands.md) rest on: the words of each command, the
statuses that are not OK, CONSTRUCT where its outcome is known, and its initial REG as a number. -/

namespace Sys2Proof

/-- OP alone determines a command that has no operand (R36, R38). -/
theorem decode_eq_of_op {c : CmdWord} {i : Instr} (h : c.extractLsb' 0 3 = i.opcode)
    (hconstruct : i.opcode ≠ 0b001#3) (hperiod : i.opcode ≠ 0b011#3) : decode c = i :=
  (Instr.eq_of_opcode_eq (h.symm.trans (opcode_decode c).symm) hconstruct hperiod).symm

/-- CONSTRUCT reads WID, SEED and B (R35, R36). -/
theorem decode_of_op_construct {c : CmdWord} (h : fieldOp c = 0b001#3) :
    decode c = .construct (fieldWid c) (fieldSeed c) (fieldB c) := by
  rw [decode, h]
  rfl

end Sys2Proof

namespace Sys2Proof.Machine

theorem raise_rspStatus_ne_ok {c : Status} (hc : c ≠ .ok) (s : State) : (raise c s).rspStatus ≠ 0#3 :=
  fun h => hc (Status.code_injective h)

theorem illegalCommand_spec (s : State) : ∃ t, illegalCommand s = .next t ∧ onlyResponds 5#3 0#64 s t :=
  ⟨_, rfl, raise_spec .illegalCommand s⟩

/-! ### The outcome of CONSTRUCT -/

theorem constructWith_of_seed_zero (mode : SeedMaskMode) (wid : WidField) (b : Bool) (s : State) :
    constructWith mode wid 0#64 b s = raise .invalidSeed s :=
  if_pos rfl

theorem constructWith_of_width_unsupported (mode : SeedMaskMode) {wid : WidField} {seed : DataWord} (b : Bool)
    (s : State) (hs : seed ≠ 0#64) (hw : ¬ (4 < wid.toNat ∧ wid.toNat < 64)) :
    constructWith mode wid seed b s = raise .invalidWidth s := by
  rw [constructWith, if_neg hs, if_neg (mt (widthSupported_iff wid).1 hw)]

theorem constructWith_of_valid (mode : SeedMaskMode) {wid : WidField} {seed : DataWord} (b : Bool) (s : State)
    (hs : seed ≠ 0#64) (hw : 4 < wid.toNat ∧ wid.toNat < 64) :
    constructWith mode wid seed b s =
      respond .ok 0#64 (writeConfiguration (initialReg mode wid seed) (widthOfField wid) b s) := by
  rw [constructWith, if_neg hs, if_pos ((widthSupported_iff wid).2 hw)]

/-! ### The initial REG -/

/-- The NARROW mask: WID - 2 does not borrow, because WID is at least 2. -/
theorem seedMask_narrow_toNat {wid : WidField} (hw : 4 < wid.toNat) :
    (seedMask .narrow wid).toNat = wid.toNat - 2 := by
  have hle : 2#8 ≤ wid := BitVec.le_def.2 (show 2 ≤ wid.toNat by omega)
  rw [seedMask, BitVec.toNat_setWidth_of_le (by decide), BitVec.toNat_sub_of_le hle]
  rfl

/-- The FULL mask: 2^WID fits in the word, because WID is at most 63. -/
theorem seedMask_full_toNat {wid : WidField} (hw : 4 < wid.toNat) (hw' : wid.toNat < 64) :
    (seedMask .full wid).toNat = 2 ^ wid.toNat - 2 := by
  have hpow : (1#64 <<< wid.toNat).toNat = 2 ^ wid.toNat := powerOfTwo_toNat hw'
  have hle : 2#64 ≤ 1#64 <<< wid.toNat := by
    rw [BitVec.le_def, hpow]
    exact Nat.le_self_pow (by omega) 2
  rw [seedMask, BitVec.toNat_sub_of_le hle, hpow]
  rfl

/-- Under either mode the mask has no bit at WID or above. -/
theorem seedMask_toNat_lt (mode : SeedMaskMode) {wid : WidField} (hw : 4 < wid.toNat) (hw' : wid.toNat < 64) :
    (seedMask mode wid).toNat < 2 ^ wid.toNat := by
  cases mode with
  | narrow =>
    rw [seedMask_narrow_toNat hw]
    exact (Nat.sub_le _ _).trans_lt Nat.lt_two_pow_self
  | full =>
    rw [seedMask_full_toNat hw hw']
    exact Nat.sub_lt (Nat.two_pow_pos _) Nat.two_pos

/-- So the masked seed with bit 0 set is below 2^WID. -/
theorem masked_seed_lt (mode : SeedMaskMode) {wid : WidField} (seed : DataWord) (hw : 4 < wid.toNat)
    (hw' : wid.toNat < 64) : seed.toNat &&& (seedMask mode wid).toNat ||| 1 < 2 ^ wid.toNat :=
  Nat.or_lt_two_pow (Nat.and_lt_two_pow _ (seedMask_toNat_lt mode hw hw'))
    (Nat.one_lt_two_pow (by omega))

/-- `[62:0]` drops nothing from it: REG is the masked seed with bit 0 set (R54). -/
theorem initialReg_toNat (mode : SeedMaskMode) {wid : WidField} (seed : DataWord) (hw : 4 < wid.toNat)
    (hw' : wid.toNat < 64) :
    (initialReg mode wid seed).toNat = seed.toNat &&& (seedMask mode wid).toNat ||| 1 := by
  have hlt : seed.toNat &&& (seedMask mode wid).toNat ||| 1 < 2 ^ 63 :=
    (masked_seed_lt mode seed hw hw').trans_le (Nat.pow_le_pow_right Nat.two_pos (by omega))
  rw [initialReg, BitVec.extractLsb'_toNat, Nat.shiftRight_zero, BitVec.toNat_or, BitVec.toNat_and]
  exact Nat.mod_eq_of_lt hlt

/-- REG starts odd (R56). -/
theorem initialReg_toNat_mod_two (mode : SeedMaskMode) {wid : WidField} (seed : DataWord) (hw : 4 < wid.toNat)
    (hw' : wid.toNat < 64) : (initialReg mode wid seed).toNat % 2 = 1 := by
  rw [initialReg_toNat mode seed hw hw', Nat.or_mod_two_eq_one]
  exact .inr rfl

end Sys2Proof.Machine
end

section
/-! The statements about the commands: NOP, CONSTRUCT, ADVANCE, PERIOD and the reserved opcodes. -/

namespace Sys2Proof.Machine

/-- Settles O2: on success the two modes give one state but for REG, since the mask enters REG alone; a failure does
not look at the mode. -/
theorem constructValidatesThenReloadsTheGenerator : Obligations.ConstructValidatesThenReloadsTheGenerator := by
  refine ⟨fun c => decode_of_op_construct, fun wid seed b s =>
    ⟨?seedZero, ?widthUnsupported, ?valid, ?modeUnused⟩⟩
  case seedZero =>
    rintro rfl
    exact ⟨_, congrArg Host.Outcome.next (constructWith_of_seed_zero _ wid b s), raise_spec .invalidSeed s⟩
  case widthUnsupported =>
    intro hs hw
    exact ⟨_, congrArg Host.Outcome.next (constructWith_of_width_unsupported _ b s hs hw), raise_spec .invalidWidth s⟩
  case valid =>
    intro hs hw hw'
    rw [constructWith_of_valid .full b s hs ⟨hw, hw'⟩]
    refine ⟨_, congrArg Host.Outcome.next (constructWith_of_valid .narrow b s hs ⟨hw, hw'⟩), ?_,
      widthOfField_toNat hw', rfl, rfl, ⟨rfl, rfl⟩, ⟨rfl, rfl, rfl⟩, ?_, rfl⟩
    · rw [← seedMask_narrow_toNat hw]
      exact initialReg_toNat .narrow seed hw hw'
    · rw [← seedMask_full_toNat hw hw']
      exact initialReg_toNat .full seed hw hw'
  case modeUnused =>
    intro hbad
    refine congrArg Host.Outcome.next ?_
    by_cases hs : seed = 0#64
    · rw [hs, constructWith_of_seed_zero, constructWith_of_seed_zero]
    · have hw := hbad.resolve_left hs
      rw [constructWith_of_width_unsupported _ b s hs hw, constructWith_of_width_unsupported _ b s hs hw]

/-- Settles O5: what is not EXHAUSTED and has a WIDTH of at least 5 steps by the table's entry. -/
theorem advanceStepsOrReportsExhaustion : Obligations.AdvanceStepsOrReportsExhaustion := by
  refine ⟨fun c h => decode_eq_of_op h (by decide) (by decide), fun s => ?_⟩
  rw [← exhausted_iff]
  rcases execAdvance_cases s with ⟨hx, e⟩ | ⟨hx, hlt, -⟩ | ⟨hx, -, taps, ht, e⟩
  · exact ⟨fun _ => ⟨_, e, raise_spec .sequenceExhausted s⟩, fun hn => absurd hx hn⟩
  · exact ⟨fun h => absurd h (Bool.eq_false_iff.1 hx), fun _ hw => absurd hw (Nat.not_le.2 hlt)⟩
  · exact ⟨fun h => absurd h (Bool.eq_false_iff.1 hx), fun _ _ => ⟨taps, _, ht, e, rfl, BitVec.toNat_add _ _, rfl, rfl,
      ⟨rfl, rfl⟩, rfl, rfl, BitVec.toNat_setWidth_of_le (by decide)⟩⟩

/-- Settles O8: 2^WID fits in the data word exactly when WID is at most 63. -/
theorem periodReturnsThePowerOfTwo : Obligations.PeriodReturnsThePowerOfTwo := by
  refine ⟨fun c => decode_of_op_period, fun wid s => ?_⟩
  rcases execPeriod_cases wid s with ⟨hlt, e⟩ | ⟨hle, e⟩
  · exact ⟨fun hle => absurd hlt (Nat.not_lt.2 hle), fun _ => ⟨_, e, raise_spec .periodRange s⟩⟩
  · exact ⟨fun _ => ⟨_, _, e, powerOfTwo_toNat (Nat.lt_succ_of_le hle), respond_spec .ok _ s⟩,
      fun hge => absurd hle (Nat.not_le.2 hge)⟩

/-- Settles O28: a status of OK leaves the valid case, where the mask bounds REG and bit 0 is set. -/
theorem constructStartsAtAnOddRegister : Obligations.ConstructStartsAtAnOddRegister := by
  intro mode wid seed b s hok
  rcases constructWith_cases mode wid seed b s with ⟨-, e⟩ | ⟨-, -, e⟩ | ⟨-, ⟨hw, hw'⟩, e⟩ <;> rw [e] at hok ⊢
  · exact absurd hok (raise_rspStatus_ne_ok (by decide) s)
  · exact absurd hok (raise_rspStatus_ne_ok (by decide) s)
  · simp only [respond_reg, respond_width, writeConfiguration_reg, writeConfiguration_width]
    have hodd := initialReg_toNat_mod_two mode seed hw hw'
    refine ⟨hodd, fun hzero => ?_, ?_⟩
    · rw [hzero] at hodd
      exact absurd hodd (by decide)
    · rw [initialReg_toNat mode seed hw hw', widthOfField_toNat hw']
      exact masked_seed_lt mode seed hw hw'

/-- Settles O1: OP = 000 has no operand, and NOP only responds. -/
theorem nopRespondsOkAndWritesNothing : Obligations.NopRespondsOkAndWritesNothing :=
  ⟨fun _ h => decode_eq_of_op h (by decide) (by decide), fun s => ⟨_, rfl, respond_spec .ok 0#64 s⟩⟩

/-- Settles O3: each of CONSTRUCT's two failures raises its status, which writes the response alone. -/
theorem failedConstructKeepsTheGenerator : Obligations.FailedConstructKeepsTheGenerator := by
  intro wid seed b s
  rcases constructWith_cases Config.seedMaskMode wid seed b s with ⟨hs, e⟩ | ⟨-, hw, e⟩ | ⟨hs, hw, e⟩
  · exact ⟨_, congrArg Host.Outcome.next e, rfl, iff_of_true (raise_rspStatus_ne_ok (by decide) s) (.inl hs),
      fun _ => ⟨(raise_spec .invalidSeed s).1, rfl⟩⟩
  · exact ⟨_, congrArg Host.Outcome.next e, rfl, iff_of_true (raise_rspStatus_ne_ok (by decide) s) (.inr hw),
      fun _ => ⟨(raise_spec .invalidWidth s).1, rfl⟩⟩
  · exact ⟨_, congrArg Host.Outcome.next e, rfl, iff_of_false (fun hne => hne rfl) (not_or.2 ⟨hs, not_not.2 hw⟩),
      fun hne => absurd rfl hne⟩

/-- Settles O9: OP alone determines a reserved command, and all four are `illegalCommand`. -/
theorem reservedOpcodesRespondIllegalCommand : Obligations.ReservedOpcodesRespondIllegalCommand := by
  refine ⟨fun c => ⟨fun h => ?_, fun h => ?_, fun h => ?_, fun h => ?_⟩, fun s =>
    ⟨illegalCommand_spec s, illegalCommand_spec s, illegalCommand_spec s, illegalCommand_spec s⟩⟩ <;>
    exact decode_eq_of_op h (by decide) (by decide)

end Sys2Proof.Machine
end

section
/-! SUPPORT. What the statements about the statuses (spec/60_exceptions.md) rest on: the status a command answers, the
causes of R64's table, and that each status has exactly its cause. -/

namespace Sys2Proof.Machine

/-- The status a command answers (R64), CONSTRUCT's seed checked before its width (R67). -/
def commandStatus (i : Instr) (s : State) : Status :=
  match i with
  | .nop => .ok
  | .construct wid seed _ =>
    if seed = 0#64 then .invalidSeed else if 5 ≤ wid.toNat ∧ wid.toNat ≤ 63 then .ok else .invalidWidth
  | .advance => if s.exhausted = true then .sequenceExhausted else .ok
  | .period wid => if 64 ≤ wid.toNat then .periodRange else .ok
  | .reserved4 => .illegalCommand
  | .reserved5 => .illegalCommand
  | .reserved6 => .illegalCommand
  | .reserved7 => .illegalCommand

/-- The command and the condition that R64's table gives each status that is not OK; OK has none of its own. -/
def Status.Cause (i : Instr) (s : State) : Status → Prop
  | .ok => True
  | .invalidSeed => ∃ wid b, i = .construct wid 0#64 b
  | .invalidWidth =>
    ∃ wid seed b, i = .construct wid seed b ∧ seed ≠ 0#64 ∧ ¬ (5 ≤ wid.toNat ∧ wid.toNat ≤ 63)
  | .sequenceExhausted => i = .advance ∧ s.exhausted = true
  | .periodRange => ∃ wid, i = .period wid ∧ 64 ≤ wid.toNat
  | .illegalCommand => i = .reserved4 ∨ i = .reserved5 ∨ i = .reserved6 ∨ i = .reserved7

/-- A command that ends in a next state has answered `commandStatus`. -/
theorem exec_rspStatus {i : Instr} {s t : State} (h : exec i s = .next t) :
    t.rspStatus = (commandStatus i s).code := by
  cases i with
  | construct wid seed b =>
    obtain rfl := Host.Outcome.next.inj h
    rcases constructWith_cases Config.seedMaskMode wid seed b s with ⟨hs, e⟩ | ⟨hs, hw, e⟩ | ⟨hs, hw, e⟩ <;>
      rw [e, commandStatus]
    · rw [if_pos hs, raise_rspStatus]
    · rw [if_neg hs, if_neg (by omega), raise_rspStatus]
    · rw [if_neg hs, if_pos (by omega), respond_rspStatus]
  | advance =>
    rcases execAdvance_cases s with ⟨hx, e⟩ | ⟨-, -, e⟩ | ⟨hx, -, taps, -, e⟩
    · obtain rfl := Host.Outcome.next.inj (e.symm.trans h)
      rw [commandStatus, if_pos hx, raise_rspStatus]
    · cases e.symm.trans h
    · obtain rfl := Host.Outcome.next.inj (e.symm.trans h)
      simp [commandStatus, hx]
  | period wid =>
    rcases execPeriod_cases wid s with ⟨hw, e⟩ | ⟨hw, e⟩ <;>
      obtain rfl := Host.Outcome.next.inj (e.symm.trans h) <;> rw [commandStatus]
    · rw [if_pos (by omega), raise_rspStatus]
    · rw [if_neg (by omega), respond_rspStatus]
  | _ =>
    obtain rfl := Host.Outcome.next.inj h
    rfl

/-- Every command meets the condition of the status it answers. -/
theorem cause_commandStatus (i : Instr) (s : State) : (commandStatus i s).Cause i s := by
  cases i with
  | nop => trivial
  | construct wid seed b =>
    rw [commandStatus]
    split_ifs with hs hw
    · exact ⟨wid, b, by rw [hs]⟩
    · trivial
    · exact ⟨wid, seed, b, rfl, hs, hw⟩
  | advance =>
    rw [commandStatus]
    split_ifs with hx
    · exact ⟨rfl, hx⟩
    · trivial
  | period wid =>
    rw [commandStatus]
    split_ifs with hw
    · exact ⟨wid, rfl, hw⟩
    · trivial
  | reserved4 => exact .inl rfl
  | reserved5 => exact .inr (.inl rfl)
  | reserved6 => exact .inr (.inr (.inl rfl))
  | reserved7 => exact .inr (.inr (.inr rfl))

/-- A command that meets the condition of a status that is not OK answers that status. -/
theorem commandStatus_of_cause {c : Status} {i : Instr} {s : State} (hc : c ≠ .ok) (h : c.Cause i s) :
    commandStatus i s = c := by
  cases c with
  | ok => exact absurd rfl hc
  | invalidSeed =>
    obtain ⟨wid, b, rfl⟩ := h
    rw [commandStatus, if_pos rfl]
  | invalidWidth =>
    obtain ⟨wid, seed, b, rfl, hs, hw⟩ := h
    exact (if_neg hs).trans (if_neg hw)
  | sequenceExhausted =>
    obtain ⟨rfl, hx⟩ := h
    exact if_pos hx
  | periodRange =>
    obtain ⟨wid, rfl, hw⟩ := h
    exact if_pos hw
  | illegalCommand => obtain rfl | rfl | rfl | rfl := h <;> rfl

/-- So each status that is not OK is answered exactly where its condition is met (R64). -/
theorem exec_rspStatus_eq_code_iff {i : Instr} {s t : State} (h : exec i s = .next t) {c : Status} (hc : c ≠ .ok) :
    t.rspStatus = c.code ↔ c.Cause i s := by
  rw [exec_rspStatus h]
  refine ⟨fun heq => ?_, fun hcause => congrArg Status.code (commandStatus_of_cause hc hcause)⟩
  rw [← Status.code_injective heq]
  exact cause_commandStatus i s

theorem commandStatus_ne_ok_of_exec {i : Instr} {s t : State} (h : exec i s = .next t) (hne : t.rspStatus ≠ 0#3) :
    commandStatus i s ≠ .ok :=
  fun hok => hne ((exec_rspStatus h).trans (congrArg Status.code hok))

/-- A command other than CONSTRUCT has at most one status that is not OK, whatever the state (R67): only ADVANCE's
depends on the state, and ADVANCE has one error. -/
theorem commandStatus_eq_of_ne_ok {i : Instr} {s s' : State} (hi : ∀ wid seed b, i ≠ .construct wid seed b)
    (h : commandStatus i s ≠ .ok) (h' : commandStatus i s' ≠ .ok) : commandStatus i s = commandStatus i s' := by
  cases i with
  | construct wid seed b => exact absurd rfl (hi wid seed b)
  | advance =>
    obtain ⟨hx, -⟩ := ite_ne_right_iff.1 h
    obtain ⟨hx', -⟩ := ite_ne_right_iff.1 h'
    rw [commandStatus, commandStatus, if_pos hx, if_pos hx']
  | _ => rfl

end Sys2Proof.Machine
end

section
/-! The statements about the statuses: one per command, each with exactly its cause, and no write beside an error. -/

namespace Sys2Proof.Machine

/-- Settles O4: CONSTRUCT's seed check comes first, every other command has one error, and a reset edge does not look
at the command. -/
theorem eachCommandReportsOneStatus : Obligations.EachCommandReportsOneStatus := by
  refine ⟨fun wid b s => ?seedFirst, fun i s t s' t' hi h h' hne hne' => ?oneError, fun e s hr => ?resetFirst⟩
  case seedFirst =>
    exact ⟨_, congrArg Host.Outcome.next (constructWith_of_seed_zero _ wid b s), raise_spec .invalidSeed s⟩
  case oneError =>
    rw [exec_rspStatus h, exec_rspStatus h',
      commandStatus_eq_of_ne_ok hi (commandStatus_ne_ok_of_exec h hne) (commandStatus_ne_ok_of_exec h' hne')]
  case resetFirst =>
    rw [clockEdge_of_rst hr, clockEdge_of_rst (e := { e with cmdValid := false }) hr]

/-- Settles O10: R64's table, row by row. -/
theorem eachStatusHasExactlyItsCause : Obligations.EachStatusHasExactlyItsCause := by
  intro i s t h
  have hle : t.rspStatus.toNat ≤ 5 := by
    rw [exec_rspStatus h]
    exact (commandStatus i s).code_le
  exact ⟨hle, exec_rspStatus_eq_code_iff h (c := .invalidSeed) (by decide),
    exec_rspStatus_eq_code_iff h (c := .invalidWidth) (by decide),
    exec_rspStatus_eq_code_iff h (c := .sequenceExhausted) (by decide),
    exec_rspStatus_eq_code_iff h (c := .periodRange) (by decide),
    exec_rspStatus_eq_code_iff h (c := .illegalCommand) (by decide)⟩

/-- Settles O11: the commands that write a register answer OK; any other only responds, with data 0 beside an error. -/
theorem notOkWritesNoArchitecturalState : Obligations.NotOkWritesNoArchitecturalState := by
  intro i s t h hne
  rcases exec_cases i s with ⟨c, d, e, hdata, -⟩ | ⟨r, w, b, e, -⟩ | ⟨r, e, -⟩ | ⟨e, -⟩
  · obtain rfl := Host.Outcome.next.inj (e.symm.trans h)
    have hc : c ≠ .ok := fun hok => hne (congrArg Status.code hok)
    exact ⟨(respond_spec c d s).1, hdata hc⟩
  · obtain rfl := Host.Outcome.next.inj (e.symm.trans h)
    exact absurd rfl hne
  · obtain rfl := Host.Outcome.next.inj (e.symm.trans h)
    exact absurd rfl hne
  · cases e.symm.trans h

end Sys2Proof.Machine
end

section
/-! The statements about reset (spec/70_reset_and_hazards.md R75, R77). -/

namespace Sys2Proof.Machine

/-- MAXP follows from WIDTH = 32, and an unbounded generator is not exhausted (R17, R18). -/
theorem loadReset_hasResetValues (s : State) : (loadReset s).HasResetValues where
  reg := loadReset_reg s
  width := loadReset_width s
  bounded := loadReset_bounded s
  count := loadReset_count s
  rspValid := loadReset_rspValid s
  rspStatus := loadReset_rspStatus s
  rspData := loadReset_rspData s
  maxp := maxp_toNat (loadReset s)
  exhausted := Bool.false_and _

theorem loadReset_sameSurroundings (s : State) : sameSurroundings s (loadReset s) :=
  ⟨loadReset_taps s, loadReset_inputs s⟩

/-- The state right after reset holds what an edge with `rst = 1` loads. -/
theorem loadReset_reset : loadReset State.reset = State.reset := rfl

/-- Seed 8 has only bit 3 set, which both masks of width 32 keep: reset does not depend on the mode (R75). -/
theorem initialReg_of_defaults (mode : SeedMaskMode) : initialReg mode 32#8 8#64 = 9#63 := by
  cases mode <;> decide

/-- Settles O29: 32 is a supported width, so CONSTRUCT 32, 8, 0 writes what reset loads. -/
theorem resetLoadsTheDefaultGenerator : Obligations.ResetLoadsTheDefaultGenerator := by
  refine ⟨?afterReset, fun e s hr => ?resetEdge, fun mode s => ?construct⟩
  case afterReset =>
    rw [← loadReset_reset]
    exact loadReset_hasResetValues State.reset
  case resetEdge =>
    exact ⟨_, clockEdge_of_rst hr s, loadReset_hasResetValues s, loadReset_sameSurroundings s⟩
  case construct =>
    rw [constructWith_of_valid mode false s (by decide) (by decide), initialReg_of_defaults]
    exact ⟨⟨rfl, rfl, rfl, rfl⟩, rfl⟩

/-- Settles O30: the step is a reset edge, which looks at neither `cmd_valid` nor `cmd`. -/
theorem resetBeatsACommandAtTheSameEdge : Obligations.ResetBeatsACommandAtTheSameEdge := by
  intro s e rest h hr
  rw [step_of_inputs h, clockEdge_of_rst hr]
  rfl

end Sys2Proof.Machine
end

section
/-! SUPPORT. What the statements about one edge rest on: what every command and every edge keeps of the invariants, of
the response registers, of TAPS and of the inputs, and where the core goes on. -/

namespace Sys2Proof

theorem Instr.validConstruct_iff (i : Instr) :
    i.validConstruct = true ↔
      ∃ wid seed b, i = .construct wid seed b ∧ seed ≠ 0#64 ∧ 4 < wid.toNat ∧ wid.toNat < 64 := by
  cases i with
  | construct wid seed b => simp [Instr.validConstruct]
  | _ => simp [Instr.validConstruct]

end Sys2Proof

namespace Sys2Proof.Machine

/-! ### The invariants -/

theorem sameArchitecture_takeInput (s : State) : sameArchitecture s (takeInput s) := ⟨rfl, rfl, rfl, rfl⟩

theorem sameArchitecture_idleEdge (s : State) : sameArchitecture s (idleEdge s) := ⟨rfl, rfl, rfl, rfl⟩

/-- The invariants speak of the architectural registers alone. -/
theorem State.Inv.of_sameArchitecture {s t : State} (hs : s.Inv) (h : sameArchitecture s t) : t.Inv := by
  obtain ⟨hr, hw, hb, hc⟩ := h
  obtain ⟨hwidth, hreg, hcount⟩ := hs
  exact ⟨by rwa [hw], by rwa [hr, hw], by rwa [hb, hc, hw]⟩

theorem loadReset_inv (s : State) : (loadReset s).Inv :=
  ⟨by simp, by simp, fun hb => absurd hb Bool.false_ne_true⟩

/-- REG starts nonzero, because it starts odd (R56). -/
theorem initialReg_ne_zero (mode : SeedMaskMode) {wid : WidField} (seed : DataWord) (hw : 4 < wid.toNat)
    (hw' : wid.toNat < 64) : initialReg mode wid seed ≠ 0#63 := by
  intro hzero
  have hodd := initialReg_toNat_mod_two mode seed hw hw'
  rw [hzero] at hodd
  exact absurd hodd (by decide)

theorem initialReg_toNat_lt (mode : SeedMaskMode) {wid : WidField} (seed : DataWord) (hw : 4 < wid.toNat)
    (hw' : wid.toNat < 64) : (initialReg mode wid seed).toNat < 2 ^ wid.toNat := by
  rw [initialReg_toNat mode seed hw hw']
  exact masked_seed_lt mode seed hw hw'

/-- A valid CONSTRUCT on this hardware, with what it writes (R54). -/
theorem exec_construct_of_valid {wid : WidField} {seed : DataWord} (b : Bool) (s : State) (hs : seed ≠ 0#64)
    (hw : 4 < wid.toNat) (hw' : wid.toNat < 64) :
    exec (.construct wid seed b) s = .next (respond .ok 0#64
      (writeConfiguration (initialReg Config.seedMaskMode wid seed) (widthOfField wid) b s)) :=
  congrArg Host.Outcome.next (constructWith_of_valid _ b s hs ⟨hw, hw'⟩)

/-- A valid CONSTRUCT leads from any state to one that meets R12, R13 and R19. -/
theorem exec_construct_inv {wid : WidField} {seed : DataWord} {b : Bool} {s c : State} (hs : seed ≠ 0#64)
    (hw : 4 < wid.toNat) (hw' : wid.toNat < 64) (h : exec (.construct wid seed b) s = .next c) : c.Inv := by
  obtain rfl := Host.Outcome.next.inj ((exec_construct_of_valid b s hs hw hw').symm.trans h)
  have hwidth := widthOfField_toNat hw'
  exact ⟨hw.trans_eq hwidth.symm, (initialReg_toNat_lt _ seed hw hw').trans_eq (congrArg (2 ^ ·) hwidth.symm),
    fun _ => Nat.zero_le _⟩

/-- Every command keeps R12, R13 and R19. -/
theorem exec_keeps_inv {i : Instr} {s t : State} (hs : s.Inv) (h : exec i s = .next t) : t.Inv := by
  cases hv : i.validConstruct with
  | true =>
    obtain ⟨wid, seed, b, rfl, hseed, hw, hw'⟩ := (Instr.validConstruct_iff i).1 hv
    exact exec_construct_inv hseed hw hw' h
  | false =>
    have hcount := exec_keeps_count_bound hs.count_bounded h
    rcases exec_cases_of_not_validConstruct hv s with ⟨c, d, e, -⟩ | ⟨-, -, hw, taps, -, e⟩ | ⟨-, -, e⟩
    · obtain rfl := Host.Outcome.next.inj (e.symm.trans h)
      exact hs.of_sameArchitecture (respond_spec c d s).1
    · obtain rfl := Host.Outcome.next.inj (e.symm.trans h)
      exact ⟨hw, stepReg_toNat_lt_two_pow taps (by omega) (by omega) hs.reg_fits, hcount⟩
    · cases e.symm.trans h

theorem clockEdge_keeps_inv {e : PortInput} {s t : State} (hs : s.Inv) (h : clockEdge e s = .next t) : t.Inv := by
  rcases clockEdge_cases e s with ⟨-, he⟩ | ⟨-, -, he⟩ | ⟨-, -, he⟩
  · obtain rfl := Host.Outcome.next.inj (he.symm.trans h)
    exact loadReset_inv s
  · exact exec_keeps_inv hs (he.symm.trans h)
  · obtain rfl := Host.Outcome.next.inj (he.symm.trans h)
    exact hs.of_sameArchitecture (sameArchitecture_idleEdge s)

theorem step_keeps_inv {s t : State} (hs : s.Inv) (h : step s = .next t) : t.Inv :=
  clockEdge_keeps_inv (hs.of_sameArchitecture (sameArchitecture_takeInput s)) h

/-! ### Where the core goes on -/

/-- A command ends in a next state unless it is an ADVANCE at a WIDTH without a table entry (R43). -/
theorem exec_next_or_fault (i : Instr) (s : State) :
    (∃ t, exec i s = .next t) ∨ (exec i s = .fault .tapLookupOutsideTable ∧ i = .advance ∧ s.width.toNat < 5) := by
  rcases exec_cases i s with ⟨c, d, e, -⟩ | ⟨r, w, b, e, -⟩ | ⟨r, e, -⟩ | hfault
  · exact .inl ⟨_, e⟩
  · exact .inl ⟨_, e⟩
  · exact .inl ⟨_, e⟩
  · exact .inr hfault

theorem exec_next_of_width_ge (i : Instr) {s : State} (hw : 5 ≤ s.width.toNat) : ∃ t, exec i s = .next t :=
  (exec_next_or_fault i s).resolve_right fun ⟨_, _, hlt⟩ => absurd hw (Nat.not_le.2 hlt)

/-- The same of an edge: a reset and an idle edge go on from every state. -/
theorem clockEdge_next_or_fault (e : PortInput) (s : State) :
    (∃ t, clockEdge e s = .next t) ∨
    (clockEdge e s = .fault .tapLookupOutsideTable ∧ e.rst = false ∧ e.cmdValid = true ∧ decode e.cmd = .advance ∧
      s.width.toNat < 5) := by
  rcases clockEdge_cases e s with ⟨-, he⟩ | ⟨hr, hc, he⟩ | ⟨-, -, he⟩
  · exact .inl ⟨_, he⟩
  · rw [he]
    exact (exec_next_or_fault (decode e.cmd) s).imp_right fun ⟨hf, hi, hw⟩ => ⟨hf, hr, hc, hi, hw⟩
  · exact .inl ⟨_, he⟩

theorem step_next_of_width_ge {s : State} (hw : 5 ≤ s.width.toNat) : ∃ t, step s = .next t :=
  (clockEdge_next_or_fault (nextInput s) (takeInput s)).resolve_right fun ⟨_, _, _, _, hlt⟩ =>
    absurd hw (Nat.not_le.2 hlt)

/-- An input with a command is a listed one: past the list nothing is driven. -/
theorem inputs_eq_of_cmdValid {s : State} (h : (nextInput s).cmdValid = true) :
    s.inputs = nextInput s :: s.inputs.tail := by
  unfold nextInput at h ⊢
  cases hl : s.inputs with
  | nil =>
    rw [hl] at h
    cases h
  | cons e rest => rfl

/-! ### TAPS and the inputs -/

theorem clockEdge_keeps_surroundings {e : PortInput} {s t : State} (h : clockEdge e s = .next t) :
    sameSurroundings s t := by
  rcases clockEdge_cases e s with ⟨-, he⟩ | ⟨-, -, he⟩ | ⟨-, -, he⟩
  · obtain rfl := Host.Outcome.next.inj (he.symm.trans h)
    exact loadReset_sameSurroundings s
  · exact exec_keeps_surroundings (he.symm.trans h)
  · obtain rfl := Host.Outcome.next.inj (he.symm.trans h)
    exact ⟨rfl, rfl⟩

/-! ### The response registers -/

theorem respond_responseInv {c : Status} {d : DataWord} (hd : c ≠ .ok → d = 0#64) (s : State) :
    (respond c d s).ResponseInv where
  status_known := c.code_le
  error_data hne := hd fun hc => hne (congrArg Status.code hc)
  invalid_clear hv := absurd hv.symm Bool.false_ne_true

/-- The registers that a reset and an idle edge leave clear hold a well-formed response: none. -/
theorem responseInv_of_clear {s : State} (hc : s.rspStatus = 0#3) (hd : s.rspData = 0#64) : s.ResponseInv where
  status_known := hc ▸ Nat.zero_le _
  error_data _ := hd
  invalid_clear _ := ⟨hc, hd⟩

theorem exec_responseInv {i : Instr} {s t : State} (h : exec i s = .next t) : t.ResponseInv := by
  rcases exec_cases i s with ⟨c, d, e, hd, -⟩ | ⟨r, w, b, e, -⟩ | ⟨r, e, -⟩ | ⟨e, -⟩
  · obtain rfl := Host.Outcome.next.inj (e.symm.trans h)
    exact respond_responseInv hd s
  · obtain rfl := Host.Outcome.next.inj (e.symm.trans h)
    exact respond_responseInv (fun hc => absurd rfl hc) _
  · obtain rfl := Host.Outcome.next.inj (e.symm.trans h)
    exact respond_responseInv (fun hc => absurd rfl hc) _
  · cases e.symm.trans h

theorem exec_rspValid {i : Instr} {s t : State} (h : exec i s = .next t) : t.rspValid = true := by
  rcases exec_cases i s with ⟨c, d, e, -⟩ | ⟨r, w, b, e, -⟩ | ⟨r, e, -⟩ | ⟨e, -⟩
  · obtain rfl := Host.Outcome.next.inj (e.symm.trans h)
    rfl
  · obtain rfl := Host.Outcome.next.inj (e.symm.trans h)
    rfl
  · obtain rfl := Host.Outcome.next.inj (e.symm.trans h)
    rfl
  · cases e.symm.trans h

theorem clockEdge_responseInv {e : PortInput} {s t : State} (h : clockEdge e s = .next t) : t.ResponseInv := by
  rcases clockEdge_cases e s with ⟨-, he⟩ | ⟨-, -, he⟩ | ⟨-, -, he⟩
  · obtain rfl := Host.Outcome.next.inj (he.symm.trans h)
    exact responseInv_of_clear rfl rfl
  · exact exec_responseInv (he.symm.trans h)
  · obtain rfl := Host.Outcome.next.inj (he.symm.trans h)
    exact responseInv_of_clear rfl rfl

/-! ### Who writes the generator -/

/-- Only a successful CONSTRUCT writes WIDTH and BOUNDED, and only it and a successful ADVANCE write REG (R11, R13,
R14). -/
theorem exec_writes_generator {i : Instr} {s t : State} (h : exec i s = .next t) :
    (¬ (t.rspStatus = 0#3 ∧ i.opcode = 0b001#3) → t.width = s.width ∧ t.bounded = s.bounded) ∧
    (¬ (t.rspStatus = 0#3 ∧ (i.opcode = 0b001#3 ∨ i.opcode = 0b010#3)) → t.reg = s.reg) := by
  rcases exec_cases i s with ⟨c, d, e, -⟩ | ⟨r, w, b, e, wid, seed, rfl⟩ | ⟨r, e, rfl⟩ | ⟨e, -⟩
  · obtain rfl := Host.Outcome.next.inj (e.symm.trans h)
    exact ⟨fun _ => ⟨rfl, rfl⟩, fun _ => rfl⟩
  · obtain rfl := Host.Outcome.next.inj (e.symm.trans h)
    exact ⟨fun hn => absurd ⟨rfl, rfl⟩ hn, fun hn => absurd ⟨rfl, .inl rfl⟩ hn⟩
  · obtain rfl := Host.Outcome.next.inj (e.symm.trans h)
    exact ⟨fun _ => ⟨rfl, rfl⟩, fun hn => absurd ⟨rfl, .inr rfl⟩ hn⟩
  · cases e.symm.trans h

end Sys2Proof.Machine
end

section
/-! The statements about one edge: the invariants, what it writes, its response, and where the core stops. -/

namespace Sys2Proof.Machine

/-- Settles O37: WIDTH at least 5 has a table entry, so the edge goes on, and each kind of edge keeps the invariants. -/
theorem everyStepKeepsTheInvariants : Obligations.EveryStepKeepsTheInvariants := by
  intro s hs
  obtain ⟨t, ht⟩ := step_next_of_width_ge hs.width_ge
  exact ⟨t, ht, step_keeps_inv hs ht⟩

/-- Settles O12: a command writes as `exec_writes_generator` says, and an idle edge writes no register. -/
theorem onlyTheNamedCommandsWriteTheGenerator : Obligations.OnlyTheNamedCommandsWriteTheGenerator := by
  intro e s t h hr
  rcases clockEdge_cases e s with ⟨hr', -⟩ | ⟨-, hc, he⟩ | ⟨-, -, he⟩
  · cases hr.symm.trans hr'
  · obtain ⟨hconf, hreg⟩ := exec_writes_generator (he.symm.trans h)
    rw [opcode_decode] at hconf hreg
    exact ⟨fun hn => hconf fun hp => hn ⟨hc, hp⟩, fun hn => hreg fun hp => hn ⟨hc, hp⟩⟩
  · obtain rfl := Host.Outcome.next.inj (he.symm.trans h)
    exact ⟨fun _ => ⟨rfl, rfl⟩, fun _ => rfl⟩

/-- Settles O33: the step takes the first input, and its edge keeps TAPS and the inputs left. -/
theorem tapTableIsImmutable : Obligations.TapTableIsImmutable :=
  fun _ _ h => clockEdge_keeps_surroundings h

/-- Settles O34: every kind of edge leaves a well-formed response. -/
theorem everyEdgeLeavesAWellFormedResponse : Obligations.EveryEdgeLeavesAWellFormedResponse :=
  fun _ _ h => clockEdge_responseInv h

/-- Settles O35: the edge that stops carries an ADVANCE, so its input is listed. -/
theorem onlyAMissingTableEntryStopsTheCore : Obligations.OnlyAMissingTableEntryStopsTheCore := by
  intro s
  refine (clockEdge_next_or_fault (nextInput s) (takeInput s)).imp_right ?_
  rintro ⟨hf, hr, hc, hi, hw⟩
  refine ⟨hf, hw, _, _, inputs_eq_of_cmdValid hc, hr, hc, ?_⟩
  rw [← opcode_decode, hi]
  rfl

/-- Settles O6: of ADVANCE's three ends only the one without a table entry is a fault. -/
theorem advanceFaultsOnlyWithoutTableEntry : Obligations.AdvanceFaultsOnlyWithoutTableEntry := by
  intro s
  rw [← exhausted_iff, Bool.not_eq_true]
  rcases execAdvance_cases s with ⟨hx, e⟩ | ⟨hx, hw, e⟩ | ⟨-, hw, taps, -, e⟩
  · exact iff_of_false (fun h => nomatch e.symm.trans h) fun ⟨_, hn⟩ => nomatch hx.symm.trans hn
  · exact iff_of_true e ⟨hw, hx⟩
  · exact iff_of_false (fun h => nomatch e.symm.trans h) fun ⟨hlt, _⟩ => absurd hw (Nat.not_le.2 hlt)

/-- Settles O7: ADVANCE raises SEQUENCE_EXHAUSTED, and raising it twice is raising it once. -/
theorem exhaustedAdvanceIsIdempotent : Obligations.ExhaustedAdvanceIsIdempotent := by
  intro s t hx h
  have hraise : ∀ u : State, u.exhausted = true → exec .advance u = .next (raise .sequenceExhausted u) :=
    fun u hu => if_pos hu
  obtain rfl := Host.Outcome.next.inj ((hraise s hx).symm.trans h)
  exact ⟨(raise_spec _ s).1, hx, hraise _ hx⟩

/-- Settles O31: the edge of an input with `cmd_valid` and without `rst` is the command's step, and every command
responds. -/
theorem stepRunsThePresentedCommand : Obligations.StepRunsThePresentedCommand := by
  refine ⟨fun s c rest h => ?listed, fun s c => ?placed⟩
  case listed =>
    have hstep : step s = exec (decode c) { s with inputs := rest } := step_of_inputs h
    exact ⟨hstep, fun t ht => exec_rspValid (hstep.symm.trans ht)⟩
  case placed =>
    have hword : BitVec.ofNat 80 (c.toNat % 2 ^ 80) = c := by
      rw [Nat.mod_eq_of_lt c.isLt, BitVec.ofNat_toNat, BitVec.setWidth_eq]
    refine (step_of_inputs (s := s.withFetchWord 80 c.toNat) rfl).trans ?_
    rw [hword]
    rfl

/-- Settles O32: with neither `rst` nor `cmd_valid`, listed or past the list, the edge is `idleEdge`. -/
theorem edgeWithoutCommandClearsTheResponse : Obligations.EdgeWithoutCommandClearsTheResponse := by
  refine ⟨fun s c rest h => step_of_inputs h, fun s h => ?_⟩
  simp [step, nextInput, takeInput, h, clockEdge, idleInput, idleEdge]

/-- Settles O36: the state right after reset is what a reset edge loads. -/
theorem resetMeetsTheInvariants : Obligations.ResetMeetsTheInvariants :=
  ⟨loadReset_inv State.reset, responseInv_of_clear rfl rfl⟩

end Sys2Proof.Machine
end

section
/-! SUPPORT. What the statements about encoded words rest on: a packed word as a number, a canonical word as its packed
fields, and the decoder of table words. -/

namespace Sys2Proof

/-- Appending puts the upper word above the lower one's bits. -/
theorem toNat_append_eq_add {m n : Nat} (x : BitVec m) (y : BitVec n) : (x ++ y).toNat = x.toNat * 2 ^ n + y.toNat := by
  rw [BitVec.toNat_append, ← Nat.shiftLeft_add_eq_or_of_lt y.isLt, Nat.shiftLeft_eq]

/-- The places of the fields in a packed word (R34). -/
theorem packFields_toNat (op : BitVec 3) (b : Bool) (wid : WidField) (seed : DataWord) :
    (packFields op b wid seed).toNat = op.toNat + 8 * b.toNat + 256 * wid.toNat + 65536 * seed.toNat := by
  have h : (packFields op b wid seed).toNat =
      ((((seed.toNat * 2 ^ 8 + wid.toNat) * 2 ^ 4 + 0) * 2 ^ 1 + (BitVec.ofBool b).toNat) * 2 ^ 3 + op.toNat) := by
    unfold packFields
    rw [toNat_append_eq_add, toNat_append_eq_add, toNat_append_eq_add, toNat_append_eq_add]
    rfl
  rw [h, BitVec.toNat_ofBool]
  omega

/-- A packed word has RSV = 0 (R34). -/
theorem extractLsb'_rsv_packFields (op : BitVec 3) (b : Bool) (wid : WidField) (seed : DataWord) :
    (packFields op b wid seed).extractLsb' 4 4 = 0#4 := by
  apply BitVec.eq_of_getLsbD_eq
  intro i hi
  rw [BitVec.getLsbD_extractLsb', packFields_getLsbD, if_neg (by omega), if_neg (by omega), if_pos (by omega)]
  simp

/-- A word with RSV = 0 is its own fields packed (R34). -/
theorem packFields_fields {c : CmdWord} (hrsv : c.extractLsb' 4 4 = 0#4) :
    packFields (fieldOp c) (fieldB c) (fieldWid c) (fieldSeed c) = c := by
  apply BitVec.eq_of_getLsbD_eq
  intro i hi
  have hr : ∀ j, j < 4 → c.getLsbD (4 + j) = false := by
    intro j hj
    have hbit := congrArg (·.getLsbD j) hrsv
    simpa [hj] using hbit
  rw [packFields_getLsbD]
  split_ifs with h3 h4 h8 h16
  · simp [fieldOp, h3]
  · obtain rfl : i = 3 := by omega
    rfl
  · obtain ⟨j, rfl⟩ : ∃ j, i = 4 + j := ⟨i - 4, by omega⟩
    exact (hr j (by omega)).symm
  · obtain ⟨j, rfl⟩ : ∃ j, i = 8 + j := ⟨i - 8, by omega⟩
    have hj : j < 8 := by omega
    simp [fieldWid, hj]
  · obtain ⟨j, rfl⟩ : ∃ j, i = 16 + j := ⟨i - 16, by omega⟩
    have hj : j < 64 := by omega
    simp [fieldSeed, hj]

/-- A command without operands encodes as its opcode, with every other field 0 (R40). -/
theorem encode_of_no_operands {i : Instr} (hconstruct : i.opcode ≠ 0b001#3) (hperiod : i.opcode ≠ 0b011#3) :
    encode i = packFields i.opcode false 0#8 0#64 := by
  cases i with
  | construct wid seed b => exact absurd rfl hconstruct
  | period wid => exact absurd rfl hperiod
  | _ => rfl

/-- CONSTRUCT's operands are read back from all three fields and PERIOD's from WID; no other command has any. -/
theorem decode_encode (i : Instr) : decode (encode i) = i := by
  cases i with
  | construct wid seed b =>
    refine (decode_of_op_construct (fieldOp_packFields _ _ _ _)).trans ?_
    rw [fieldWid_packFields, fieldSeed_packFields, fieldB_packFields]
  | period wid =>
    refine (decode_of_op_period (fieldOp_packFields _ _ _ _)).trans ?_
    rw [fieldWid_packFields]
  | _ => exact decode_packFields_opcode (by decide) (by decide)

/-- The table-word decoder at the port's own length is the decoder. -/
theorem decodeTableWord_eighty (c : CmdWord) : decodeTableWord 80 c.toNat = some (decode c) := by
  rw [decodeTableWord, if_pos ⟨le_rfl, c.isLt⟩, decodeBits, if_pos ⟨rfl, c.isLt⟩, BitVec.ofNat_toNat,
    BitVec.setWidth_eq]
  rfl

end Sys2Proof
end

section
/-! The statements about encoded words: decoding an encoding, encoding a canonical word, and assembled operands. -/

namespace Sys2Proof.Machine

/-- Settles O38: the decoder reads back the fields the encoder packs, and the word's value is below 2^80. -/
theorem decodeOfEncodeIsTheCommand : Obligations.DecodeOfEncodeIsTheCommand :=
  fun i _ => ⟨decode_encode i, (decodeTableWord_eighty _).trans (congrArg some (decode_encode i))⟩

/-- Settles O40: the decoded command carries the fields that its encoding packs again, and the others are 0. -/
theorem encodeOfDecodeIsTheCanonicalWord : Obligations.EncodeOfDecodeIsTheCanonicalWord := by
  intro c hrsv
  have hpack := packFields_fields hrsv
  refine ⟨fun hop => ?construct, fun hop hb hseed => ?period, fun hc hp hb hwid hseed => ?noOperands⟩
  case construct =>
    rw [decode_of_op_construct hop]
    change fieldOp c = _ at hop
    rwa [hop] at hpack
  case period =>
    rw [decode_of_op_period hop]
    change fieldOp c = _ at hop
    change fieldB c = _ at hb
    change fieldSeed c = _ at hseed
    rwa [hop, hb, hseed] at hpack
  case noOperands =>
    rw [← opcode_decode] at hc hp
    rw [encode_of_no_operands hc hp, opcode_decode]
    change fieldB c = _ at hb
    change fieldWid c = _ at hwid
    change fieldSeed c = _ at hseed
    rwa [hb, hwid, hseed] at hpack

/-- Settles O42: a well-formed width fits the WID field, and the SEED field holds the seed mod 2^64. -/
theorem assembledOperandsAreTheFields : Obligations.AssembledOperandsAreTheFields := by
  refine ⟨fun width seed b h => ?construct, fun width h => ?period, by decide, by decide, fun w => rfl⟩
  case construct =>
    obtain ⟨hwidth, -⟩ := Bool.and_eq_true_iff.1 h
    have hlt : width < 256 := of_decide_eq_true hwidth
    refine ⟨congrArg BitVec.toNat (fieldOp_packFields _ _ _ _), fieldB_packFields _ _ _ _, ?rsv, ?wid, ?seed⟩
    case rsv => exact extractLsb'_rsv_packFields _ _ _ _
    case wid =>
      refine (congrArg BitVec.toNat (fieldWid_packFields _ _ _ _)).trans ?_
      rw [BitVec.toNat_ofNat, Nat.mod_eq_of_lt hlt]
    case seed =>
      refine (congrArg (fun x : DataWord => (x.toNat : Int)) (fieldSeed_packFields _ _ _ _)).trans ?_
      rw [BitVec.toNat_ofInt, Int.toNat_of_nonneg (Int.emod_nonneg _ (by decide))]
      rfl
  case period =>
    have hlt : width < 256 := of_decide_eq_true h
    refine (packFields_toNat _ _ _ _).trans ?_
    rw [BitVec.toNat_ofNat, Nat.mod_eq_of_lt hlt]
    rfl

end Sys2Proof.Machine
end

section
/-! SUPPORT. What the statements about the table, the repeated step and MAXLEN rest on (spec/00_scope.md R6;
spec/40_tap_table_and_step.md R44, R45, R50, R51; spec/41_commands.md R55). -/

namespace Sys2Proof.Machine

/-! ### The table's domain -/

/-- What replaces an entry outside R44's domain lies in the domain of every supported width. -/
theorem confineTaps_admissible {w : Nat} (hw : 3 ≤ w) (t : Taps) : (Config.confineTaps w t).admissible w = true := by
  unfold Config.confineTaps
  split
  case isTrue h => exact h
  case isFalse =>
    have hle : (0 : Nat) ≤ w ∧ 1 ≤ w ∧ 2 ≤ w ∧ 3 ≤ w := by omega
    exact Bool.and_eq_true_iff.2 ⟨by decide, decide_eq_true hle⟩

/-! ### The step at 0, at 1 and repeated -/

@[simp] theorem stepReg_zero (t : Taps) (w : Nat) : stepReg t w 0#63 = 0#63 := by
  simp [stepReg]

/-- A tap other than 0 does not see bit 0. -/
theorem tappedBit_one {t : BitVec 6} (ht : t ≠ 0#6) : tappedBit 1#63 t = 0#63 :=
  tappedBit_of_toNat_lt_two_pow (Nat.one_lt_two_pow fun h => ht (BitVec.eq_of_toNat_eq h))

/-- Without a tap of 0 the feedback does not see bit 0 (R45). -/
theorem feedback_one {t : Taps} (h0 : t.t0 ≠ 0#6) (h1 : t.t1 ≠ 0#6) (h2 : t.t2 ≠ 0#6) (h3 : t.t3 ≠ 0#6) :
    feedback t 1#63 = 0#63 := by
  rw [feedback, tappedBit_one h0, tappedBit_one h1, tappedBit_one h2, tappedBit_one h3]
  rfl

/-- The step shifts bit 0 out, so it sees it through the feedback alone. -/
theorem stepReg_xor_one {t : Taps} (hf : feedback t 1#63 = 0#63) (w : Nat) (s : RegWord) :
    stepReg t w (s ^^^ 1#63) = stepReg t w s := by
  have hshift : (1#63 : RegWord) >>> 1 = 0#63 := by decide
  rw [stepReg, BitVec.ushiftRight_xor_distrib, feedback_xor, hf, hshift, BitVec.xor_zero, BitVec.xor_zero, stepReg]

/-- The last of k + 1 steps, where `stepIter` takes out the first. -/
theorem stepIter_succ_last (t : Taps) (w k : Nat) (a : RegWord) :
    stepIter t w (k + 1) a = stepReg t w (stepIter t w k a) := by
  induction k generalizing a with
  | zero => rfl
  | succ k ih => exact ih (stepReg t w a)

theorem stepIter_zero_reg (t : Taps) (w k : Nat) : stepIter t w k 0#63 = 0#63 := by
  induction k with
  | zero => rfl
  | succ k ih => rw [stepIter_succ_last, ih, stepReg_zero]

theorem stepIter_toNat_lt_two_pow (t : Taps) {w : Nat} {a : RegWord} (hw : 1 ≤ w) (hw' : w ≤ 63)
    (ha : a.toNat < 2 ^ w) (k : Nat) : (stepIter t w k a).toNat < 2 ^ w := by
  induction k with
  | zero => exact ha
  | succ k ih =>
    rw [stepIter_succ_last]
    exact stepReg_toNat_lt_two_pow t hw hw' ih

/-! ### MAXLEN -/

/-- A width of at least 2 has a second nonzero value. -/
theorem exists_nonzero_ne {w : Nat} (hw : 2 ≤ w) (a : RegWord) : ∃ x : RegWord, x ≠ 0#63 ∧ x.toNat < 2 ^ w ∧ x ≠ a := by
  have hpow : 2 ^ 2 ≤ 2 ^ w := Nat.pow_le_pow_right Nat.two_pos hw
  by_cases ha : a = 1#63
  · exact ⟨2#63, by decide, (by decide : 2 < 2 ^ 2).trans_le hpow, by rw [ha]; decide⟩
  · exact ⟨1#63, by decide, (by decide : 1 < 2 ^ 2).trans_le hpow, Ne.symm ha⟩

section
variable {t : Taps} {w : Nat} (hm : MaxLen t w) (hw : 5 ≤ w) (hw' : w ≤ 63)
include hm hw

/-- R50: a nonzero value that stepped to 0 would never meet another nonzero value. -/
theorem MaxLen.stepReg_ne_zero {a : RegWord} (ha : a ≠ 0#63) (hlt : a.toNat < 2 ^ w) : stepReg t w a ≠ 0#63 := by
  intro hzero
  obtain ⟨x, hx, hxlt, hxa⟩ := exists_nonzero_ne (by omega : 2 ≤ w) a
  obtain ⟨k, -, hk⟩ := hm a x ha hlt hx hxlt
  cases k with
  | zero => exact hxa hk.symm
  | succ k =>
    rw [stepIter, hzero, stepIter_zero_reg] at hk
    exact hx hk.symm

include hw'

theorem MaxLen.stepIter_ne_zero {a : RegWord} (ha : a ≠ 0#63) (hlt : a.toNat < 2 ^ w) (k : Nat) :
    stepIter t w k a ≠ 0#63 := by
  induction k with
  | zero => exact ha
  | succ k ih =>
    rw [stepIter_succ_last]
    exact hm.stepReg_ne_zero hw ih (stepIter_toNat_lt_two_pow t (by omega) hw' hlt k)

/-- The first 2^w - 1 values are distinct: they meet all of as many nonzero values. -/
theorem MaxLen.stepIter_injective {a : RegWord} (ha : a ≠ 0#63) (hlt : a.toNat < 2 ^ w) {j k : Nat}
    (hj : j < 2 ^ w - 1) (hk : k < 2 ^ w - 1) (h : stepIter t w j a = stepIter t w k a) : j = k := by
  have hmaps : Set.MapsTo (fun k => (stepIter t w k a).toNat) (Finset.range (2 ^ w - 1)) (Finset.Ico 1 (2 ^ w)) := by
    intro k _
    refine Finset.mem_coe.2 (Finset.mem_Ico.2 ⟨Nat.pos_of_ne_zero fun hzero => ?_, ?_⟩)
    · exact hm.stepIter_ne_zero hw hw' ha hlt k (BitVec.eq_of_toNat_eq hzero)
    · exact stepIter_toNat_lt_two_pow t (by omega) hw' hlt k
  have hsurj : Set.SurjOn (fun k => (stepIter t w k a).toNat) (Finset.range (2 ^ w - 1)) (Finset.Ico 1 (2 ^ w)) := by
    intro n hn
    obtain ⟨hpos, hlt'⟩ := Finset.mem_Ico.1 (Finset.mem_coe.1 hn)
    have hn' : (BitVec.ofNat 63 n).toNat = n :=
      BitVec.toNat_ofNat n 63 ▸ Nat.mod_eq_of_lt (hlt'.trans_le (Nat.pow_le_pow_right Nat.two_pos hw'))
    have hne : BitVec.ofNat 63 n ≠ 0#63 := fun hzero => by
      rw [hzero] at hn'
      exact absurd hn' (Nat.ne_of_lt hpos)
    obtain ⟨k, hk, e⟩ := hm a (BitVec.ofNat 63 n) ha hlt hne (hn'.trans_lt hlt')
    exact ⟨k, Finset.mem_coe.2 (Finset.mem_range.2 hk), (congrArg BitVec.toNat e).trans hn'⟩
  have hcard : (Finset.range (2 ^ w - 1)).card ≤ (Finset.Ico 1 (2 ^ w)).card := by
    rw [Finset.card_range, Nat.card_Ico]
  exact Finset.injOn_of_surjOn_of_card_le _ hmaps hsurj hcard (Finset.mem_coe.2 (Finset.mem_range.2 hj))
    (Finset.mem_coe.2 (Finset.mem_range.2 hk)) (congrArg BitVec.toNat h)

/-- R51: value 2^w - 1 is among the first 2^w - 1, and it is no later one of them than the starting one. -/
theorem MaxLen.stepIter_cycle {a : RegWord} (ha : a ≠ 0#63) (hlt : a.toNat < 2 ^ w) :
    stepIter t w (2 ^ w - 1) a = a := by
  obtain ⟨n, hn⟩ : ∃ n, 2 ^ w - 1 = n + 1 :=
    Nat.exists_eq_succ_of_ne_zero (Nat.sub_ne_zero_of_lt (Nat.one_lt_two_pow (by omega)))
  obtain ⟨k, hk, e⟩ := hm a _ ha hlt (hm.stepIter_ne_zero hw hw' ha hlt (2 ^ w - 1))
    (stepIter_toNat_lt_two_pow t (by omega) hw' hlt (2 ^ w - 1))
  cases k with
  | zero => exact e.symm
  | succ k =>
    rw [hn] at e
    have hnk := hm.stepIter_injective hw hw' (hm.stepReg_ne_zero hw ha hlt)
      (stepReg_toNat_lt_two_pow t (by omega) hw' hlt) (by omega) (by omega) e
    omega

/-- R50: two values with one step are the same, since the second is met from the first. -/
theorem MaxLen.stepReg_injective {a b : RegWord} (ha : a.toNat < 2 ^ w) (hb : b.toNat < 2 ^ w)
    (h : stepReg t w a = stepReg t w b) : a = b := by
  by_cases ha0 : a = 0#63
  · by_contra hne
    rw [ha0, stepReg_zero] at h
    exact hm.stepReg_ne_zero hw (fun hb0 => hne (ha0.trans hb0.symm)) hb h.symm
  · have hstep := hm.stepReg_ne_zero hw ha0 ha
    have hb0 : b ≠ 0#63 := fun hb0 => hstep (by rw [h, hb0, stepReg_zero])
    obtain ⟨k, hk, rfl⟩ := hm a b ha0 ha hb0 hb
    rw [← stepIter_succ_last] at h
    have hzero : 0 = k := hm.stepIter_injective hw hw' hstep (stepReg_toNat_lt_two_pow t (by omega) hw' ha)
      (by omega) hk h
    rw [← hzero]
    rfl

end

/-! ### The bits of the initial REG -/

/-- Bit 0 is set, and every other bit is the seed's under the mask (R54). -/
theorem getLsbD_initialReg (mode : SeedMaskMode) {wid : WidField} (seed : DataWord) (hw : 4 < wid.toNat)
    (hw' : wid.toNat < 64) (i : Nat) :
    (initialReg mode wid seed).getLsbD i = (seed.getLsbD i && (seedMask mode wid).getLsbD i || decide (i = 0)) := by
  have hone : Nat.testBit 1 i = decide (i = 0) := by
    rw [Bool.eq_iff_iff, Nat.testBit_one_eq_true_iff_self_eq_zero, decide_eq_true_iff]
  rw [← BitVec.testBit_toNat, initialReg_toNat mode seed hw hw', Nat.testBit_or, Nat.testBit_and, hone]
  rfl

/-- The FULL mask has exactly the bits 1 to WID - 1 (R55). -/
theorem getLsbD_seedMask_full {wid : WidField} (hw : 4 < wid.toNat) (hw' : wid.toNat < 64) {i : Nat} (hi : 1 ≤ i) :
    (seedMask .full wid).getLsbD i = decide (i < wid.toNat) := by
  obtain ⟨j, rfl⟩ : ∃ j, i = j + 1 := ⟨i - 1, by omega⟩
  have hmask : (seedMask .full wid).toNat = 2 * (2 ^ (wid.toNat - 1) - 1) := by
    rw [seedMask_full_toNat hw hw', Nat.mul_sub, ← Nat.pow_succ', Nat.succ_eq_add_one, Nat.sub_add_cancel (by omega)]
  rw [← BitVec.testBit_toNat, hmask, Nat.testBit_succ, Nat.mul_div_cancel_left _ Nat.two_pos,
    Nat.testBit_two_pow_sub_one, decide_eq_decide]
  omega

end Sys2Proof.Machine
end

section
/-! The statements about the table, the step and MAXLEN, and the bits of the initial REG. -/

namespace Sys2Proof.Machine

/-- Settles O24: a step to 0 would leave other nonzero values unmet, and two values with one step would repeat one
early. -/
theorem maxLenStepPermutesNonzeroStates : Obligations.MaxLenStepPermutesNonzeroStates :=
  fun _ _ hw hw' hm => ⟨fun _ => hm.stepReg_ne_zero hw, fun _ _ => hm.stepReg_injective hw hw'⟩

/-- Settles O25: no tap sees bit 0, so 1 steps to 0, which MAXLEN rules out. -/
theorem withoutTapZeroNoMaximalLength : Obligations.WithoutTapZeroNoMaximalLength := by
  intro t w hw hw' h0 h1 h2 h3
  have hxor := stepReg_xor_one (feedback_one h0 h1 h2 h3) w
  have hone : stepReg t w 1#63 = 0#63 := (hxor 0#63).trans (stepReg_zero t w)
  exact ⟨fun s => (hxor s).symm, fun hm => hm.stepReg_ne_zero hw (by decide) (Nat.one_lt_two_pow (by omega)) hone, hone⟩

/-- Settles O26: the values 1 .. 2^w - 1 are the first 2^w - 1 values from the step of s. -/
theorem maxLenGivesOneCycleOfNonzeroStates : Obligations.MaxLenGivesOneCycleOfNonzeroStates := by
  intro t w s hw hw' hm hs hlt
  have hstep := hm.stepReg_ne_zero hw hs hlt
  have hsteplt := stepReg_toNat_lt_two_pow t (by omega) hw' hlt
  have hcycle := hm.stepIter_cycle hw hw' hs hlt
  refine ⟨hm.stepIter_ne_zero hw hw' hs hlt, ?distinct, ?all, hcycle, ?next⟩
  case distinct =>
    rintro (_ | j) (_ | k) hj hj' hk hk' h
    · rfl
    · omega
    · omega
    · rw [hm.stepIter_injective hw hw' hstep hsteplt hj' hk' h]
  case all =>
    intro x hx hxlt
    obtain ⟨k, hk, e⟩ := hm _ x hstep hsteplt hx hxlt
    exact ⟨k + 1, by omega, hk, e⟩
  case next =>
    rw [← Nat.sub_add_cancel (Nat.one_le_two_pow (n := w)), stepIter_succ_last, hcycle]

/-- Settles O27: the mask selects the seed's bits, and the NARROW mask is WID - 2. -/
theorem initialRegisterHasOnlyMaskedBits : Obligations.InitialRegisterHasOnlyMaskedBits := by
  intro wid seed b s hs hw hw'
  refine ⟨⟨_, exec_construct_of_valid b s hs hw hw', fun i hi => ?bits, ?bound, ?sixtyOne⟩, fun i hi => ?full⟩
  case bits =>
    rw [← seedMask_narrow_toNat hw]
    have hbit := (getLsbD_initialReg .narrow seed hw hw' i).symm.trans hi
    simp only [Bool.or_eq_true, Bool.and_eq_true, decide_eq_true_eq] at hbit
    exact hbit.elim (fun h => .inr h.2) .inl
  case bound =>
    refine (initialReg_toNat .narrow seed hw hw').trans_le ?_
    rw [seedMask_narrow_toNat hw, Nat.or_and_distrib_right]
    exact Nat.and_le_right
  case sixtyOne =>
    have hfinite : ∀ n < 62, n ||| 1 ≤ 61 := by decide
    exact hfinite _ (by omega)
  case full =>
    rw [constructWith_of_valid .full b s hs ⟨hw, hw'⟩]
    refine (getLsbD_initialReg .full seed hw hw' i).trans ?_
    rw [getLsbD_seedMask_full hw hw' hi, decide_eq_false (by omega : i ≠ 0), Bool.or_false, Bool.and_comm]

/-- Settles O18: the definition's two branches. -/
theorem tapLookupCoversTheSupportedWidths : Obligations.TapLookupCoversTheSupportedWidths :=
  fun _ _ => ⟨fun _ hw => dif_pos hw, fun hlt => dif_neg (Nat.not_le.2 hlt)⟩

/-- Settles O19: every entry at reset is a confined one, of a width of at least 5. -/
theorem resetTapTableIsAdmissible : Obligations.ResetTapTableIsAdmissible := by
  refine ⟨fun i => ?_, fun w t h => if_pos h⟩
  have hentry : State.reset.taps[i] = Config.confineTaps (i.val + 5) (Config.freeTaps (i.val + 5)) :=
    Vector.getElem_ofFn i.isLt
  rw [hentry]
  exact confineTaps_admissible (by omega) _

/-- Settles O23: a width of at least 5 has an entry, whose step of 0 is 0. -/
theorem zeroIsAFixedPoint : Obligations.ZeroIsAFixedPoint := by
  refine ⟨stepReg_zero, fun s hr hw hx => ?_⟩
  rcases execAdvance_cases s with ⟨hx', -⟩ | ⟨-, hlt, -⟩ | ⟨-, -, taps, -, e⟩
  · cases hx.symm.trans hx'
  · exact absurd hw (Nat.not_le.2 hlt)
  · rw [hr, stepReg_zero] at e
    exact ⟨_, e, rfl, rfl, rfl, rfl⟩

end Sys2Proof.Machine
end

section
/-! SUPPORT. What the statements about runs of edges and about several cores rest on (spec/20_memory.md R31, R33;
spec/70_reset_and_hazards.md R82). -/

namespace Sys2Proof.Machine

/-! ### Runs of edges -/

theorem with_inputs_eq_self {s : State} {l : List PortInput} (h : s.inputs = l) : { s with inputs := l } = s := by
  rw [← h]

theorem responses_of_next {s t : State} (h : step s = .next t) (n : Nat) :
    responses (n + 1) s = t.response.toList ++ responses n t := by
  rw [responses, h]

theorem response_length (t : State) : t.response.toList.length = t.rspValid.toNat := by
  unfold State.response
  cases t.rspValid <;> rfl

/-- An edge leaves a response exactly when it accepts a command (R82). -/
theorem clockEdge_rspValid {e : PortInput} {s t : State} (h : clockEdge e s = .next t) :
    t.rspValid = (e.cmdValid && !e.rst) := by
  rcases clockEdge_cases e s with ⟨hr, he⟩ | ⟨hr, hc, he⟩ | ⟨hr, hc, he⟩
  · obtain rfl := Host.Outcome.next.inj (he.symm.trans h)
    simp [hr]
  · simp [exec_rspValid (he.symm.trans h), hr, hc]
  · obtain rfl := Host.Outcome.next.inj (he.symm.trans h)
    simp [hc]

/-- The accepted commands of n + 1 edges: the one of the coming edge, if any, and those of the n edges after it. -/
theorem accepted_succ (s : State) (n : Nat) :
    ((s.inputs.take (n + 1)).filter fun e => e.cmdValid && !e.rst).length =
      ((nextInput s).cmdValid && !(nextInput s).rst).toNat +
        ((s.inputs.tail.take n).filter fun e => e.cmdValid && !e.rst).length := by
  unfold nextInput
  cases s.inputs with
  | nil => simp [idleInput]
  | cons e rest =>
    rw [List.take_succ_cons, List.filter_cons, List.headD_cons, List.tail_cons]
    cases e.cmdValid && !e.rst with
    | true => exact Nat.add_comm _ 1
    | false => exact (Nat.zero_add _).symm

/-! ### Several cores -/

/-- What stands in a list after one place was modified was there before or is the modified element. -/
theorem mem_of_mem_modify {α : Type} {l : List α} {k : Nat} {f : α → α} {x : α} (h : x ∈ l.modify k f) :
    x ∈ l ∨ ∃ y ∈ l, f y = x := by
  obtain ⟨j, hj⟩ := List.mem_iff_getElem?.1 h
  rw [List.getElem?_modify] at hj
  obtain ⟨y, hy, hyx⟩ := Option.map_eq_some_iff.1 hj
  have hmem := List.mem_of_getElem? hy
  split at hyx
  · exact .inr ⟨y, hmem, hyx⟩
  · exact .inl (hyx ▸ hmem)

end Sys2Proof.Machine
end

section
/-! The statements about runs of edges and about several cores. -/

namespace Sys2Proof.Machine

/-- Settles O48: a command does not read the inputs to come, so each edge is its command with the rest of the list in
place. -/
theorem presentedCommandsTakeEffectInOrder : Obligations.PresentedCommandsTakeEffectInOrder := by
  intro cs
  induction cs with
  | nil =>
    intro s h
    exact congrArg Host.Outcome.next (with_inputs_eq_self h).symm
  | cons c cs ih =>
    intro s h
    have hstep := (step_of_inputs h).trans (exec_with_inputs (decode c) { s with inputs := [] } (cs.map _))
    rw [List.length_cons, List.map_cons, runEdges, execAll, hstep]
    cases e : exec (decode c) { s with inputs := [] } with
    | next t =>
      exact (ih _ rfl).trans (congrArg _ (with_inputs_eq_self (exec_keeps_surroundings e).2))
    | fault r => rfl
    | refused r => rfl

/-- Settles O49: one edge at a time, on the states that meet the invariants, from which every edge goes on. -/
theorem oneResponsePerAcceptedCommand : Obligations.OneResponsePerAcceptedCommand := by
  intro s hs n
  induction n generalizing s with
  | zero => rfl
  | succ n ih =>
    obtain ⟨t, ht⟩ := step_next_of_width_ge hs.width_ge
    have hinputs : t.inputs = s.inputs.tail := (clockEdge_keeps_surroundings ht).2
    rw [responses_of_next ht, List.length_append, response_length, clockEdge_rspValid ht, ih t (step_keeps_inv hs ht),
      hinputs, accepted_succ]

/-- Settles O50: a core's edge modifies its own place of the list and no other. -/
theorem coresShareNoMutableState : Obligations.CoresShareNoMutableState := by
  refine fun k G => ⟨stepCore_taps k G, List.length_modify .., fun j hj => ?others, fun s hs hT => ?own, fun j hj => ?order⟩
  case others => exact List.getElem?_modify_ne _ _ (Ne.symm hj)
  case own =>
    rw [stepCore_slots, List.getElem?_modify_eq, hs, ← stepSlot_running hT]
    rfl
  case order => exact congrArg (Cores.mk G.taps) (List.modify_modify_ne _ _ _ (Ne.symm hj))

/-- Settles O51: a core that runs after the edge is an untouched one or has stepped over the common table, which no
step writes. -/
theorem tapContentsStayCommonToAllCores : Obligations.TapContentsStayCommonToAllCores := by
  refine ⟨fun n => ⟨fun s hs => ?reset, rfl⟩, fun k G hG => ⟨fun t ht => ?edge, stepCore_taps k G⟩⟩
  case reset =>
    obtain rfl := CoreSlot.running.inj (List.eq_of_mem_replicate hs)
    rfl
  case edge =>
    rcases mem_of_mem_modify ht with hmem | ⟨o, -, ho⟩
    · exact hG t hmem
    · obtain ⟨s, -, hstep⟩ := running_of_stepSlot ho
      exact (tapTableIsImmutable _ t hstep).1

end Sys2Proof.Machine
end

section
/-! SUPPORT. What the statements about sequences of commands rest on (spec/41_commands.md R58, R59, R62): runs of
commands, what a command that is no successful CONSTRUCT keeps, and the ADVANCEs of a bounded generator. -/

namespace Sys2Proof.Machine

/-! ### Runs of commands -/

theorem execAll_cons_of_next {i : Instr} {s t : State} (h : exec i s = .next t) (is : List Instr) :
    execAll (i :: is) s = execAll is t := by
  rw [execAll, h]

/-- A run that ends in a next state stopped at none of its commands. -/
theorem exists_next_of_execAll_cons {i : Instr} {is : List Instr} {s t : State} (h : execAll (i :: is) s = .next t) :
    ∃ u, exec i s = .next u ∧ execAll is u = .next t := by
  rw [execAll] at h
  cases e : exec i s with
  | next u => exact ⟨u, rfl, by rwa [e] at h⟩
  | fault r => simp [e] at h
  | refused r => simp [e] at h

theorem execAll_append_of_next {is : List Instr} {s t : State} (h : execAll is s = .next t) (js : List Instr) :
    execAll (is ++ js) s = execAll js t := by
  induction is generalizing s with
  | nil =>
    obtain rfl := Host.Outcome.next.inj h
    rfl
  | cons i is ih =>
    obtain ⟨u, hu, hrest⟩ := exists_next_of_execAll_cons h
    rw [List.cons_append, execAll_cons_of_next hu, ih hrest]

theorem execAll_replicate_of_fixed {i : Instr} {s : State} (h : exec i s = .next s) (k : Nat) :
    execAll (List.replicate k i) s = .next s := by
  induction k with
  | zero => rfl
  | succ k ih => rw [List.replicate_succ, execAll_cons_of_next h, ih]

/-- What every listed command keeps, the run keeps. -/
theorem execAll_keeps {P : State → Prop} {is : List Instr} {s t : State}
    (hstep : ∀ i ∈ is, ∀ u v, P u → exec i u = .next v → P v) (hs : P s) (h : execAll is s = .next t) : P t := by
  induction is generalizing s with
  | nil =>
    obtain rfl := Host.Outcome.next.inj h
    exact hs
  | cons i is ih =>
    obtain ⟨u, hu, hrest⟩ := exists_next_of_execAll_cons h
    exact ih (fun j hj => hstep j (List.mem_cons_of_mem i hj)) (hstep i List.mem_cons_self s u hs hu) hrest

/-! ### One ADVANCE, by the state it meets -/

theorem tapLookup_of_width_ge (T : TapTable) {w : WidthWord} (hw : 5 ≤ w.toNat) :
    ∃ taps, tapLookup T w = some taps :=
  ⟨_, dif_pos hw⟩

theorem exec_advance_of_exhausted {s : State} (hx : s.exhausted = true) :
    exec .advance s = .next (raise .sequenceExhausted s) :=
  if_pos hx

/-- An ADVANCE that is not exhausted steps REG by the entry of WIDTH (R58). -/
theorem exec_advance_of_entry {s : State} {taps : Taps} (hx : s.exhausted = false)
    (ht : tapLookup s.taps s.width = some taps) :
    exec .advance s = .next (respond .ok ((stepReg taps s.width.toNat s.reg).setWidth 64)
      (writeAdvance (stepReg taps s.width.toNat s.reg) s)) := by
  simp [exec, execAdvance, hx, ht]

/-- A successful ADVANCE answers the new REG. -/
theorem exec_advance_data {s t : State} (h : exec .advance s = .next t) (hok : t.rspStatus = 0#3) :
    t.rspData.toNat = t.reg.toNat ∧ t.width = s.width := by
  rcases execAdvance_cases s with ⟨-, e⟩ | ⟨-, -, e⟩ | ⟨-, -, taps, -, e⟩
  · obtain rfl := Host.Outcome.next.inj (e.symm.trans h)
    exact absurd hok (raise_rspStatus_ne_ok (by decide) s)
  · cases e.symm.trans h
  · obtain rfl := Host.Outcome.next.inj (e.symm.trans h)
    exact ⟨BitVec.toNat_setWidth_of_le (by decide), rfl⟩

theorem exhausted_of_unbounded {s : State} (hb : s.bounded = false) : s.exhausted = false := by
  rw [State.exhausted, hb, Bool.false_and]

/-! ### What a command that is no successful CONSTRUCT keeps -/

theorem exec_keeps_width {i : Instr} {s t : State} (hv : i.validConstruct = false) (h : exec i s = .next t) :
    t.width = s.width :=
  ((exec_writes_generator h).1 fun hn =>
    Bool.false_ne_true (hv.symm.trans ((validConstruct_iff_of_exec h).2 hn))).1

/-- Under MAXLEN no command makes REG zero: CONSTRUCT starts it nonzero and the step keeps it so (R50). -/
theorem exec_keeps_reg_nonzero {i : Instr} {s t : State} (hs : s.MaxLenInv) (h : exec i s = .next t) :
    t.reg ≠ 0#63 := by
  obtain ⟨hinv, hreg, taps, htaps, hm⟩ := hs
  cases hv : i.validConstruct with
  | true =>
    obtain ⟨wid, seed, b, rfl, hseed, hw, hw'⟩ := (Instr.validConstruct_iff i).1 hv
    obtain rfl := Host.Outcome.next.inj ((exec_construct_of_valid b s hseed hw hw').symm.trans h)
    exact initialReg_ne_zero _ seed hw hw'
  | false =>
    rcases exec_cases_of_not_validConstruct hv s with ⟨c, d, e, -⟩ | ⟨-, -, hw, taps', htaps', e⟩ | ⟨-, -, e⟩
    · obtain rfl := Host.Outcome.next.inj (e.symm.trans h)
      exact hreg
    · obtain rfl := Option.some.inj (htaps.symm.trans htaps')
      obtain rfl := Host.Outcome.next.inj (e.symm.trans h)
      exact hm.stepReg_ne_zero hw hreg hinv.reg_fits
    · cases e.symm.trans h

/-- The entry of WIDTH is the same while WIDTH and TAPS are. -/
theorem State.MaxLenInv.of_same_entry {s t : State} (hs : s.MaxLenInv) (hinv : t.Inv) (hreg : t.reg ≠ 0#63)
    (hw : t.width = s.width) (ht : t.taps = s.taps) : t.MaxLenInv :=
  ⟨hinv, hreg, by rw [hw, ht]; exact hs.entry⟩

theorem exec_keeps_maxLenInv {i : Instr} {s t : State} (hv : i.validConstruct = false) (hs : s.MaxLenInv)
    (h : exec i s = .next t) : t.MaxLenInv :=
  hs.of_same_entry (exec_keeps_inv hs.inv h) (exec_keeps_reg_nonzero hs h) (exec_keeps_width hv h)
    (exec_keeps_surroundings h).1

theorem clockEdge_keeps_reg_nonzero {e : PortInput} {s t : State} (hs : s.MaxLenInv) (h : clockEdge e s = .next t) :
    t.reg ≠ 0#63 := by
  rcases clockEdge_cases e s with ⟨-, he⟩ | ⟨-, -, he⟩ | ⟨-, -, he⟩
  · obtain rfl := Host.Outcome.next.inj (he.symm.trans h)
    exact (by decide : 9#63 ≠ 0#63)
  · exact exec_keeps_reg_nonzero hs (he.symm.trans h)
  · obtain rfl := Host.Outcome.next.inj (he.symm.trans h)
    exact hs.reg_nonzero

/-- Under MAXLEN a successful ADVANCE answers a value in [1, 2^WIDTH - 1] (R59). -/
theorem exec_advance_data_range {s t : State} (hs : s.MaxLenInv) (h : exec .advance s = .next t)
    (hok : t.rspStatus = 0#3) : 1 ≤ t.rspData.toNat ∧ t.rspData.toNat ≤ 2 ^ s.width.toNat - 1 := by
  obtain ⟨hdata, hw⟩ := exec_advance_data h hok
  have hreg := exec_keeps_reg_nonzero hs h
  have hlt := (exec_keeps_inv hs.inv h).reg_fits
  rw [hw] at hlt
  rw [hdata]
  exact ⟨Nat.pos_of_ne_zero fun hzero => hreg (BitVec.eq_of_toNat_eq hzero), Nat.le_sub_one_of_lt hlt⟩

/-! ### The ADVANCEs of a bounded generator -/

/-- `t` holds the generator of `c` after `k` successful ADVANCEs with `c`'s entry `taps`, whatever its response. -/
structure AfterAdvances (taps : Taps) (c : State) (k : Nat) (t : State) : Prop where
  width : t.width = c.width
  bounded : t.bounded = c.bounded
  table : t.taps = c.taps
  count : t.count.toNat = k
  reg : t.reg = stepIter taps c.width.toNat k c.reg

section
variable {taps : Taps} {c t : State} {k : Nat}

theorem afterAdvances_zero (hc : c.count = 0#64) : AfterAdvances taps c 0 c :=
  ⟨rfl, rfl, rfl, congrArg BitVec.toNat hc, rfl⟩

/-- A response alone does not move it. -/
theorem AfterAdvances.of_respond (h : AfterAdvances taps c k t) (code : Status) (d : DataWord) :
    AfterAdvances taps c k (respond code d t) :=
  ⟨h.width, h.bounded, h.table, h.count, h.reg⟩

theorem AfterAdvances.exhausted_iff (h : AfterAdvances taps c k t) (hb : c.bounded = true) :
    t.exhausted = true ↔ 2 ^ c.width.toNat ≤ k := by
  rw [Machine.exhausted_iff, h.bounded, h.width, h.count, hb]
  exact and_iff_right rfl

/-- From the end of the sequence on, ADVANCE raises SEQUENCE_EXHAUSTED (R58). -/
theorem AfterAdvances.exec_advance_of_ge (h : AfterAdvances taps c k t) (hb : c.bounded = true)
    (hk : 2 ^ c.width.toNat ≤ k) : exec .advance t = .next (raise .sequenceExhausted t) :=
  exec_advance_of_exhausted ((h.exhausted_iff hb).2 hk)

/-- Before it, ADVANCE answers the next value (R58). -/
theorem AfterAdvances.exec_advance_of_lt (h : AfterAdvances taps c k t) (hb : c.bounded = true)
    (ht : tapLookup c.taps c.width = some taps) (hk : k < 2 ^ c.width.toNat) :
    ∃ u, exec .advance t = .next u ∧ AfterAdvances taps c (k + 1) u ∧ u.rspStatus = 0#3 ∧
      u.rspData.toNat = u.reg.toNat := by
  have hx : t.exhausted = false :=
    Bool.eq_false_iff.2 fun hx => absurd hk (Nat.not_lt.2 ((h.exhausted_iff hb).1 hx))
  have he : exec .advance t = _ := exec_advance_of_entry hx (by rw [h.table, h.width]; exact ht)
  refine ⟨_, he, ⟨h.width, h.bounded, h.table, ?_, ?_⟩, rfl, (exec_advance_data he rfl).1⟩
  · rw [← h.count]
    exact (count_succ_of_not_exhausted hx (h.bounded.trans hb)).1
  · rw [stepIter_succ_last, ← h.reg, ← h.width]
    rfl

/-- Any other command that is no successful CONSTRUCT responds and keeps the place in the sequence. -/
theorem AfterAdvances.exec_other (h : AfterAdvances taps c k t) {i : Instr} (hv : i.validConstruct = false)
    (hi : i ≠ .advance) : ∃ u, exec i t = .next u ∧ AfterAdvances taps c k u := by
  rcases exec_cases_of_not_validConstruct hv t with ⟨code, d, e, -⟩ | ⟨hadv, -⟩ | ⟨hadv, -⟩
  · exact ⟨_, e, h.of_respond code d⟩
  · exact absurd hadv hi
  · exact absurd hadv hi

/-- A run without a successful CONSTRUCT moves it by the ADVANCEs in it, up to the end (R62). -/
theorem AfterAdvances.exists_execAll {is : List Instr} (h : AfterAdvances taps c k t) (hb : c.bounded = true)
    (ht : tapLookup c.taps c.width = some taps) (hk : k ≤ 2 ^ c.width.toNat) (hv : ∀ i ∈ is, i.validConstruct = false) :
    ∃ u, execAll is t = .next u ∧ AfterAdvances taps c (min (k + is.count .advance) (2 ^ c.width.toNat)) u := by
  induction is generalizing k t with
  | nil =>
    rw [List.count_nil, Nat.add_zero, Nat.min_eq_left hk]
    exact ⟨t, rfl, h⟩
  | cons i is ih =>
    have hv' : ∀ j ∈ is, j.validConstruct = false := fun j hj => hv j (List.mem_cons_of_mem i hj)
    by_cases hi : i = .advance
    · subst hi
      rw [List.count_cons_self]
      rcases hk.lt_or_eq with hlt | hend
      · obtain ⟨u, hu, hafter, -⟩ := h.exec_advance_of_lt hb ht hlt
        rw [execAll_cons_of_next hu, ← Nat.add_assoc, Nat.add_right_comm]
        exact ih hafter hlt hv'
      · rw [execAll_cons_of_next (h.exec_advance_of_ge hb hend.ge)]
        obtain ⟨u, hu, hafter⟩ := ih (h.of_respond .sequenceExhausted 0#64) hk hv'
        rw [Nat.min_eq_right (by omega)] at hafter ⊢
        exact ⟨u, hu, hafter⟩
    · obtain ⟨u, hu, hafter⟩ := h.exec_other (hv i List.mem_cons_self) hi
      rw [execAll_cons_of_next hu, List.count_cons_of_ne hi]
      exact ih hafter hk hv'

/-- k ADVANCEs, up to the end of the sequence, all succeed, the last answering the k-th value (R62). -/
theorem execAll_replicate_advance (hc : c.count = 0#64) (hb : c.bounded = true)
    (ht : tapLookup c.taps c.width = some taps) (hk : k ≤ 2 ^ c.width.toNat) :
    ∃ u, execAll (List.replicate k .advance) c = .next u ∧ AfterAdvances taps c k u ∧
      (1 ≤ k → u.rspStatus = 0#3 ∧ u.rspData.toNat = u.reg.toNat) := by
  induction k with
  | zero => exact ⟨c, rfl, afterAdvances_zero hc, fun h => absurd h (by decide)⟩
  | succ k ih =>
    obtain ⟨t, hrun, hafter, -⟩ := ih (Nat.le_of_succ_le hk)
    obtain ⟨u, hu, hafter', hresp⟩ := hafter.exec_advance_of_lt hb ht hk
    rw [List.replicate_succ', execAll_append_of_next hrun, execAll_cons_of_next hu]
    exact ⟨u, rfl, hafter', fun _ => hresp⟩

/-- Every further ADVANCE leaves the state after the last successful one, with SEQUENCE_EXHAUSTED as response (R62). -/
theorem execAll_replicate_advance_beyond (hc : c.count = 0#64) (hb : c.bounded = true)
    (ht : tapLookup c.taps c.width = some taps) (hk : 2 ^ c.width.toNat < k) :
    ∃ t u, execAll (List.replicate (2 ^ c.width.toNat) .advance) c = .next t ∧
      execAll (List.replicate k .advance) c = .next u ∧ onlyResponds 3#3 0#64 t u := by
  obtain ⟨t, hrun, hafter, -⟩ := execAll_replicate_advance hc hb ht le_rfl
  have hadv := hafter.exec_advance_of_ge hb le_rfl
  obtain ⟨-, -, hfixed⟩ := exhaustedAdvanceIsIdempotent t _ ((hafter.exhausted_iff hb).2 le_rfl) hadv
  obtain ⟨j, rfl⟩ := Nat.exists_eq_add_of_lt hk
  refine ⟨t, raise .sequenceExhausted t, hrun, ?_, raise_spec _ t⟩
  rw [Nat.add_assoc, List.replicate_add, execAll_append_of_next hrun, List.replicate_succ, execAll_cons_of_next hadv,
    execAll_replicate_of_fixed hfixed]

end

/-- An unbounded generator answers and counts on (R62). -/
theorem exec_advance_of_unbounded {s : State} (hw : 5 ≤ s.width.toNat) (hb : s.bounded = false) :
    ∃ t, exec .advance s = .next t ∧ t.rspStatus = 0#3 ∧ t.count = s.count + 1#64 ∧ t.width = s.width ∧
      t.bounded = false := by
  obtain ⟨taps, ht⟩ := tapLookup_of_width_ge s.taps hw
  exact ⟨_, exec_advance_of_entry (exhausted_of_unbounded hb) ht, rfl, rfl, rfl, hb⟩

end Sys2Proof.Machine
end

section
/-! The statements about sequences of commands. -/

namespace Sys2Proof.Machine

/-- Settles O44: a valid CONSTRUCT starts a bounded generator with COUNT = 0, whose ADVANCEs up to and beyond 2^WIDTH
the two lemmas give. -/
theorem boundedSequenceHasExactlyMaxPeriodElements : Obligations.BoundedSequenceHasExactlyMaxPeriodElements := by
  intro wid seed s hs hw hw'
  have hc := exec_construct_of_valid true s hs hw hw'
  obtain ⟨taps, ht⟩ := tapLookup_of_width_ge s.taps (exec_construct_inv hs hw hw' hc).width_ge
  refine ⟨_, taps, hc, ht, fun k hk => ?upTo, fun k hk => ?beyond⟩ <;> rw [← widthOfField_toNat hw'] at hk ⊢
  case upTo =>
    obtain ⟨t, hrun, hafter, hresp⟩ := execAll_replicate_advance rfl rfl ht hk
    exact ⟨t, hrun, hafter.count, hafter.reg, hresp⟩
  case beyond => exact execAll_replicate_advance_beyond rfl rfl ht hk

/-- Settles O54: other commands keep the place in the sequence, which decides what the next ADVANCE answers. -/
theorem otherCommandsDoNotDisturbTheBoundedSequence : Obligations.OtherCommandsDoNotDisturbTheBoundedSequence := by
  intro wid seed s is hs hw hw' hv
  have hc := exec_construct_of_valid true s hs hw hw'
  obtain ⟨taps, ht⟩ := tapLookup_of_width_ge s.taps (exec_construct_inv hs hw hw' hc).width_ge
  obtain ⟨t, hrun, hafter⟩ := (afterAdvances_zero rfl).exists_execAll rfl ht (Nat.zero_le _) hv
  rw [Nat.zero_add] at hafter
  rw [← widthOfField_toNat hw']
  rcases Nat.lt_or_ge (is.count .advance) (2 ^ (widthOfField wid).toNat) with hlt | hge
  · have hmin := Nat.min_eq_left hlt.le
    obtain ⟨u, hu, hafter', hok, hdata⟩ := hafter.exec_advance_of_lt rfl ht (hmin.trans_lt hlt)
    refine ⟨_, taps, t, u, hc, ht, hrun, hu, hafter.count, hafter.reg, fun _ => ⟨hok, ?_⟩,
      fun hge => absurd hlt (Nat.not_lt.2 hge)⟩
    rw [hdata, hafter'.reg]
    exact congrArg (fun k => (stepIter taps _ (k + 1) _).toNat) hmin
  · have hu := hafter.exec_advance_of_ge rfl (Nat.min_eq_right hge).ge
    exact ⟨_, taps, t, _, hc, ht, hrun, hu, hafter.count, hafter.reg, fun hlt => absurd hlt (Nat.not_lt.2 hge),
      fun _ => raise_spec _ t⟩

/-- Settles O53: the values are those of the cycle that MAXLEN gives, whose value 2^w is the first again. -/
theorem boundedValuesUnderMaxLen : Obligations.BoundedValuesUnderMaxLen := by
  intro wid seed s c taps hs hw hw' hc ht hm
  obtain rfl := Host.Outcome.next.inj ((exec_construct_of_valid true s hs hw hw').symm.trans hc)
  rw [← widthOfField_toNat hw'] at hm ⊢
  have hinv := exec_construct_inv hs hw hw' hc
  obtain ⟨hnonzero, -, -, -, hrepeat⟩ := maxLenGivesOneCycleOfNonzeroStates taps _ _ hinv.width_ge
    (Nat.le_of_lt_succ (widthOfField wid).isLt) hm (initialReg_ne_zero _ seed hw hw') hinv.reg_fits
  refine ⟨fun k hk hk' => ?nonzero, ?repeats⟩
  case nonzero =>
    obtain ⟨t, hrun, hafter, hresp⟩ := execAll_replicate_advance rfl rfl ht hk'
    obtain ⟨hok, hdata⟩ := hresp hk
    refine ⟨t, hrun, hok, fun hzero => hnonzero k ?_⟩
    refine hafter.reg.symm.trans (BitVec.eq_of_toNat_eq (hdata.symm.trans ?_))
    rw [hzero]
    rfl
  case repeats =>
    obtain ⟨t, hrun, hafter, hresp⟩ := execAll_replicate_advance (k := 1) rfl rfl ht Nat.one_le_two_pow
    obtain ⟨u, hrun', hafter', hresp'⟩ := execAll_replicate_advance rfl rfl ht le_rfl
    refine ⟨t, u, hrun, hrun', BitVec.eq_of_toNat_eq ?_⟩
    rw [(hresp le_rfl).2, (hresp' Nat.one_le_two_pow).2, hafter.reg, hafter'.reg]
    exact congrArg BitVec.toNat hrepeat

/-- Settles O45: one ADVANCE after another, none of them exhausted. -/
theorem unboundedSequenceNeverEnds : Obligations.UnboundedSequenceNeverEnds := by
  intro s hw hb k
  induction k generalizing s with
  | zero =>
    obtain ⟨t, ht, hok, hcount, hwidth, hbounded⟩ := exec_advance_of_unbounded hw hb
    refine ⟨t, execAll_cons_of_next ht [], hok, ?_, hwidth, hbounded⟩
    rw [hcount]
    exact BitVec.toNat_add _ _
  | succ k ih =>
    obtain ⟨u, hu, -, hcount, hwidth, hbounded⟩ := exec_advance_of_unbounded hw hb
    obtain ⟨t, hrun, hok, hcount', hwidth', hbounded'⟩ := ih u (hwidth ▸ hw) hbounded
    refine ⟨t, (execAll_cons_of_next hu _).trans hrun, hok, ?_, hwidth'.trans hwidth, hbounded'⟩
    rw [hcount', hcount, BitVec.toNat_add, Nat.mod_add_mod]
    rw [Nat.add_assoc, Nat.add_comm (1#64).toNat]
    rfl

/-- Settles O46: CONSTRUCT writes every register, so nothing of the two states but what they share is left. -/
theorem constructReplaysTheSameSequence : Obligations.ConstructReplaysTheSameSequence := by
  intro wid seed b s₁ s₂ is hs hw hw' hsame
  obtain ⟨htaps, hinputs⟩ := hsame
  rw [execAll_cons_of_next (exec_construct_of_valid b s₁ hs hw hw'),
    execAll_cons_of_next (exec_construct_of_valid b s₂ hs hw hw')]
  unfold respond writeConfiguration
  rw [htaps, hinputs]

/-- Settles O47: the run keeps the invariants and WIDTH, and under MAXLEN a nonzero REG. -/
theorem advanceReturnsValuesInRange : Obligations.AdvanceReturnsValuesInRange := by
  intro wid seed b s c hc hok is u v hv hrun hadv hok'
  have hvalid := (validConstruct_iff_of_exec hc).2 ⟨hok, rfl⟩
  obtain ⟨hs, hw, hw'⟩ : seed ≠ 0#64 ∧ 4 < wid.toNat ∧ wid.toNat < 64 := of_decide_eq_true hvalid
  have hinv := exec_construct_inv hs hw hw' hc
  obtain rfl := Host.Outcome.next.inj ((exec_construct_of_valid b s hs hw hw').symm.trans hc)
  rw [← widthOfField_toNat hw']
  have hwidth : u.width = widthOfField wid := execAll_keeps (P := fun u => u.width = widthOfField wid)
    (fun i hi _ _ hP h => (exec_keeps_width (hv i hi) h).trans hP) rfl hrun
  refine ⟨?below, fun taps ht hm => ?range⟩
  case below =>
    obtain ⟨hdata, hvw⟩ := exec_advance_data hadv hok'
    have hinv' := execAll_keeps (P := State.Inv) (fun _ _ _ _ => exec_keeps_inv) hinv hrun
    rw [hdata, ← hwidth, ← hvw]
    exact (exec_keeps_inv hinv' hadv).reg_fits
  case range =>
    have hmax := execAll_keeps (P := State.MaxLenInv) (fun i hi _ _ => exec_keeps_maxLenInv (hv i hi))
      ⟨hinv, initialReg_ne_zero _ seed hw hw', taps, ht, hm⟩ hrun
    rw [← hwidth]
    exact exec_advance_data_range hmax hadv hok'

/-- Settles O52: every kind of edge keeps REG nonzero, and TAPS is never written, so the entry depends on WIDTH
alone. -/
theorem stepKeepsAMaximalGeneratorWhileWidthStays : Obligations.StepKeepsAMaximalGeneratorWhileWidthStays := by
  intro s hs
  obtain ⟨t, ht⟩ := step_next_of_width_ge hs.inv.width_ge
  have hinv := step_keeps_inv hs.inv ht
  have hs' : (takeInput s).MaxLenInv :=
    hs.of_same_entry (hs.inv.of_sameArchitecture (sameArchitecture_takeInput s)) hs.reg_nonzero rfl rfl
  have hreg := clockEdge_keeps_reg_nonzero hs' ht
  refine ⟨t, ht, hinv, hreg, fun hw => hs.of_same_entry hinv hreg hw (tapTableIsImmutable s t ht).1, ?advance⟩
  intro c rest hinputs hop hok
  have hnext : step s = exec (decode c) (takeInput s) := by
    rw [step, nextInput, hinputs]
    rfl
  rw [decode_eq_of_op (i := .advance) hop (by decide) (by decide)] at hnext
  exact exec_advance_data_range (s := takeInput s) hs' (hnext.symm.trans ht) hok

end Sys2Proof.Machine
end
